-- ==== Sys2Proof/Word.lean ====
section
/-! DEFINITION. The two pieces of plain arithmetic on natural numbers that the widths and the well-formedness rule of
`spec/00_scope.md` are written with. The block has no machine word of its own: every register has the width its own
rule gives it (`spec/10_state.md` rule R20). -/

namespace Sys2Proof

/-- `ceil(log2 n)`, the least `w` with `n ≤ 2^w` (used by `spec/00_scope.md` rules R7 and R16 to give widths). -/
def ceilLog2 (n : Nat) : Nat :=
  if n ≤ 1 then 0 else Nat.log2 (n - 1) + 1

/-- `|a - b|` on naturals (`spec/00_scope.md` rule R17 clause f). -/
def absDiff (a b : Nat) : Nat :=
  (a - b) + (b - a)

end Sys2Proof
end

