-- ==== Sys2Proof/Config.lean ====
section
/-! DEFINITION. The configuration record of the block (`spec/00_scope.md` rules R7 to R18), the well-formedness check
of rule R17, the widths derived from it, and the reference configuration `REF`. Nothing in this model is left free: the
spec gives every result of every operation a value, so no opaque constant stands here. -/

namespace Sys2Proof

/-- The configuration constants, "fixed at build time, not runtime-configurable" (rule R18), before rule R17 has been
checked of them. Natural numbers: the clauses `RETRY_BOUND >= 0` and `CENTER_TICKS >= 0` of rule R17 hold by type. -/
structure Params where
  /-- `PERIOD`, the wrap period of the Timestamp Source in ticks (R7). -/
  period : Nat
  /-- `TICKS_PER_US`, read by no rule of the block, only by the microsecond notation of scripts (R8, R92 c). -/
  ticksPerUs : Nat
  /-- `SYNC_THRESHOLD`, the least elapsed value classified as a sync gap (R9). -/
  syncThreshold : Nat
  /-- `CHANNEL_MIN_WIDTH`, the least elapsed value classified as a channel pulse (R10). -/
  channelMinWidth : Nat
  /-- `MAX_CHANNELS`, the number of entries of `cand[]` and of `pub_ch[]` (R11). -/
  maxChannels : Nat
  /-- `CENTER_TICKS`, the centre of the conversion (R12). -/
  centerTicks : Nat
  /-- `SCALE`, the factor of the conversion, per tick (R12; `spec/90_conflicts.md` C1). -/
  scale : Nat
  /-- `CHVAL_W`, the width in bits of a ChannelValue (R13). -/
  chvalW : Nat
  /-- `STABLE_COUNT`, the number of equal consecutive frames needed before one is published (R14). -/
  stableCount : Nat
  /-- `RETRY_BOUND`, the number of mismatching frame closes tolerated since the last confirmation (R15). -/
  retryBound : Nat
deriving DecidableEq, Repr

namespace Params

/-- `TICK_W = ceil(log2(PERIOD))`, the width of a tick and of an elapsed value (R7; DEDUCED,
`notes/assumptions/6.md`). -/
def tickW (p : Params) : Nat := ceilLog2 p.period

/-- `COUNT_W = 8`, the width of every pulse count; not a free parameter (R16). -/
def countW (_p : Params) : Nat := 8

/-- `STAB_W = ceil(log2(STABLE_COUNT + 1))`, the width of the stability counter (R16). -/
def stabW (p : Params) : Nat := ceilLog2 (p.stableCount + 1)

/-- `MIS_W = max(1, ceil(log2(RETRY_BOUND + 1)))`, the width of the mismatch counter (R16). -/
def misW (p : Params) : Nat := max 1 (ceilLog2 (p.retryBound + 1))

/-- `CMD_W = TICK_W + 2`, the width of the command port (`spec/30_encoding.md` rule R80). -/
def cmdW (p : Params) : Nat := p.tickW + 2

/-- `FRAME_W = 9 + CHVAL_W * MAX_CHANNELS`, the width of the read port (`spec/30_encoding.md` rule R80). -/
def frameW (p : Params) : Nat := 9 + p.chvalW * p.maxChannels

end Params

/-- Which clause of rule R17 an ill-formed configuration breaks. Clause (e), `RETRY_BOUND >= 0`, cannot be broken by a
natural number. A configuration that breaks a clause is refused when it is built (`spec/93_implementation_defined.md`
U2): no machine and no state exist for it. Safe: nothing can be proved of a machine that does not exist. -/
inductive ConfigRefusal where
  /-- Clause (a): not `2 <= PERIOD <= 2^TICK_W`. -/
  | periodRange
  /-- Clause (b): not `0 < CHANNEL_MIN_WIDTH < SYNC_THRESHOLD < PERIOD`. -/
  | thresholdOrder
  /-- Clause (c): not `1 <= MAX_CHANNELS <= 255`. -/
  | channelCap
  /-- Clause (d): not `STABLE_COUNT >= 2`. -/
  | stableCount
  /-- Clause (f): `SCALE` is 0, or the conversion of some legal channel pulse does not fit `CHVAL_W` bits. -/
  | conversionWidth
deriving DecidableEq, Repr

/-- The well-formedness check of rule R17, clause by clause; `none` when the configuration is well-formed, else the
first clause it breaks. -/
def Params.check (p : Params) : Option ConfigRefusal :=
  if ¬ (2 ≤ p.period ∧ p.period ≤ 2 ^ p.tickW) then some .periodRange
  else if ¬ (0 < p.channelMinWidth ∧ p.channelMinWidth < p.syncThreshold ∧ p.syncThreshold < p.period) then
    some .thresholdOrder
  else if ¬ (1 ≤ p.maxChannels ∧ p.maxChannels ≤ 255) then some .channelCap
  else if ¬ 2 ≤ p.stableCount then some .stableCount
  else if ¬ (1 ≤ p.scale ∧
      max (absDiff p.channelMinWidth p.centerTicks) (absDiff (p.syncThreshold - 1) p.centerTicks) * p.scale
        < 2 ^ (p.chvalW - 1)) then some .conversionWidth
  else none

/-- A well-formed configuration: the constants with the proof of rule R17. "The rules of this spec give a meaning only
to a well-formed configuration, and a model refuses any other." -/
structure Config extends Params where
  /-- Rule R17 holds of the constants. -/
  wf : toParams.check = none
deriving DecidableEq, Repr

namespace Config

/-- Build a configuration, or refuse it by the clause of rule R17 it breaks (U2). -/
def build (p : Params) : Except ConfigRefusal Config :=
  match h : p.check with
  | none => .ok { toParams := p, wf := h }
  | some e => .error e

/-- The constants of the reference configuration (R17). -/
def refParams : Params where
  period := 65536
  ticksPerUs := 2
  syncThreshold := 6600
  channelMinWidth := 1000
  maxChannels := 8
  centerTicks := 3000
  scale := 10
  chvalW := 32
  stableCount := 2
  retryBound := 3

/-- `REF`, the reference configuration (R17), the one every test vector uses unless it names another and the one the
machine `Sys2Proof.core` is built with. -/
def ref : Config where
  toParams := refParams
  wf := by decide

/-- Clause (d) of rule R17. -/
theorem two_le_stableCount (c : Config) : 2 ≤ c.stableCount := by
  have h := c.wf
  unfold Params.check at h
  split at h <;> try contradiction
  split at h <;> try contradiction
  split at h <;> try contradiction
  split at h <;> try contradiction
  omega

end Config

end Sys2Proof
end

