-- ==== Sys2Proof/Syntax.lean ====
section
/-! DEFINITION. The operations of the block, one constructor per row of `spec/opcode_table.json`, and what the two
ports can carry in one step (`spec/30_encoding.md` rules R80 to R82, R87). -/

namespace Sys2Proof

/-- The five operations of the block (`spec/00_scope.md` rule R4; `spec/30_encoding.md` rules R82, R87). -/
inductive Instr where
  /-- `NOP`: the idle value of the command port; its `tick` field is ignored (`spec/44_lifecycle.md` rule R180). -/
  | nop
  /-- `EDGE tick`: one rising edge, seen when the Timestamp Source read `tick` (`spec/41_frame_fsm.md` rule R120). The
  operand is an unsigned number used exactly as it stands (R83); `Instr.wellFormed` checks its range (R84). -/
  | edge (tick : Nat)
  /-- `START`; its `tick` field is ignored (`spec/44_lifecycle.md` rule R181). -/
  | start
  /-- `STOP`; its `tick` field is ignored (`spec/44_lifecycle.md` rule R182). -/
  | stop
  /-- `READ`: one sampling of the read port; it has no operation code and no operand (`spec/43_frame_store.md` rule
  R163; `spec/30_encoding.md` rule R87). -/
  | read
deriving DecidableEq, Repr

/-- What one step can carry on the ports: a command word on the command port, `CMD_W` bits, or a sampling of the read
port by the consumer, which has no word (rules R80, R81, R87). -/
inductive PortStep (c : Config) where
  /-- One command word, `cmd[CMD_W-1 : 0]`. -/
  | command (w : BitVec c.cmdW)
  /-- The consumer samples `rd_frame`. -/
  | sample
deriving DecidableEq, Repr

end Sys2Proof
end

