-- ==== Sys2Proof/WellFormed.lean ====
section
/-! DEFINITION. Which operations can be written: the one range the spec puts on an operand (`spec/30_encoding.md`
rule R84). The well-formedness of a configuration is `Params.check` of `Sys2Proof/Config.lean` (rule R17). -/

namespace Sys2Proof

/-- `0 <= tick < PERIOD` for `EDGE` (R84); the other operations have no operand (R85, R87). -/
def Instr.wellFormed (c : Config) : Instr → Bool
  | .nop => true
  | .edge tick => decide (tick < c.period)
  | .start => true
  | .stop => true
  | .read => true

end Sys2Proof
end

