-- ==== Sys2Proof/Decode.lean ====
section
/-! DEFINITION. Decoding what the ports carry, total, refusing by name, and the encoder beside it
(`spec/30_encoding.md` rules R81 to R87). -/

namespace Sys2Proof

/-- Why a word is not an operation. -/
inductive DecodeError where
  /-- An `EDGE` whose `tick >= PERIOD`, writable only when `PERIOD < 2^TICK_W` (R84, R86;
  `spec/93_implementation_defined.md` U1). -/
  | tickOutOfRange (tick : Nat)
deriving DecidableEq, Repr

/-- `op = cmd[CMD_W-1 : CMD_W-2]` (R81). -/
def opField (c : Config) (w : BitVec c.cmdW) : BitVec 2 := w.extractLsb' c.tickW 2

/-- `tick = cmd[TICK_W-1 : 0]` (R81). -/
def tickField (c : Config) (w : BitVec c.cmdW) : BitVec c.tickW := w.extractLsb' 0 c.tickW

/-- The operation codes of rule R82. -/
def opNop : BitVec 2 := 0b00#2
/-- The operation code of `EDGE` (R82). -/
def opEdge : BitVec 2 := 0b01#2
/-- The operation code of `START` (R82). -/
def opStart : BitVec 2 := 0b10#2
/-- The operation code of `STOP` (R82). -/
def opStop : BitVec 2 := 0b11#2

/-- `EDGE` with its operand checked by rule R84. -/
def decodeEdge (c : Config) (tick : Nat) : Except DecodeError Instr :=
  if tick < c.period then .ok (.edge tick) else .error (.tickOutOfRange tick)

/-- Decoding a command word (R86): the operation by `op`, and for `EDGE` the check of rule R84. In `NOP`, `START` and
`STOP` the `tick` field is ignored (R85). No code is reserved (R82, R90). -/
def decodeCommand (c : Config) (w : BitVec c.cmdW) : Except DecodeError Instr :=
  if opField c w = opNop then .ok .nop
  else if opField c w = opEdge then decodeEdge c (tickField c w).toNat
  else if opField c w = opStart then .ok .start
  else .ok .stop

/-- Decoding what the ports carry in one step: every sampling of the read port is a `READ` (R87). -/
def decode (c : Config) : PortStep c → Except DecodeError Instr
  | .command w => decodeCommand c w
  | .sample => .ok .read

/-- The command word `{op, tick}` (R81): `op * 2^TICK_W + tick`. A `tick` of `2^TICK_W` or more fits no field: the sum then
carries into the code or is cut to `CMD_W` bits (DESIGN CHOICE, unsafe, `notes/assumptions/15.md`); no well-formed operation
has such a tick. -/
def commandWord (c : Config) (op : BitVec 2) (tick : Nat) : BitVec c.cmdW :=
  BitVec.ofNat c.cmdW (op.toNat * 2 ^ c.tickW + tick)

/-- The encoder, meant for well-formed operations (`notes/assumptions/15.md`): `NOP`, `START` and `STOP` carry zeros in the
`tick` field (R85), and `READ` assembles to no command word (R91). -/
def encode (c : Config) : Instr → PortStep c
  | .nop => .command (commandWord c opNop 0)
  | .edge tick => .command (commandWord c opEdge tick)
  | .start => .command (commandWord c opStart 0)
  | .stop => .command (commandWord c opStop 0)
  | .read => .sample

/-- What a row of `spec/opcode_table.json` puts on the ports: a row with fewer bits than a command word has (`READ`'s, which
has none: format `RD`, width 0, mask 0) is a sampling of the read port, any other a word on the command port (format `C`).
The spec is silent on a number of `2^CMD_W` or more given for such a word (R81 fixes its length): it is cut to its low
`CMD_W` bits here (DESIGN CHOICE, unsafe, `notes/assumptions/8.md`), and `decodeTableWord` refuses it. -/
def portStepOf (c : Config) (nbits w : Nat) : PortStep c :=
  if nbits < c.cmdW then .sample else .command (BitVec.ofNat c.cmdW w)

/-- The operation the decoder of the `REF` machine reads from a word of the opcode table. A number that does not fit
the `CMD_W` bits of the command port is no command word and is refused (DESIGN CHOICE, `notes/assumptions/8.md`). -/
def decodeTableWord (nbits w : Nat) : Option Instr :=
  if Config.ref.cmdW ≤ nbits ∧ 2 ^ Config.ref.cmdW ≤ w then none
  else (decode Config.ref (portStepOf Config.ref nbits w)).toOption

end Sys2Proof
end

