-- ==== Sys2Proof/Machine/State.lean ====
section
/-! DEFINITION. The state of the block, its reset value, and the reasons a step can stop.

`Regs c` is the block: the twelve registers of `spec/10_state.md` rule R20 and nothing else (R45), for any well-formed
configuration `c`, since the configuration is a parameter of the step relation and not state (R34). `State` is the
block built with `REF`, together with the two things outside it that a run needs: what the producer, the consumer and
reset present next, and what the consumer has read. -/

namespace Sys2Proof.Machine

/-- The state of the Frame State Machine: three constructors and no fourth (R22, R42). -/
inductive Fsm where
  /-- Waiting for a sync gap. -/
  | notSynced
  /-- A frame is open; no count is confirmed. -/
  | accumulating
  /-- A count is confirmed and a frame is published. -/
  | synced
deriving DecidableEq, Repr

/-- SyncState, the `sync` field of the published frame (R30). -/
inductive SyncState where
  /-- The channel data must not be trusted. -/
  | notSynced
  /-- The store holds a confirmed frame. -/
  | synced
deriving DecidableEq, Repr

/-- The class of an elapsed value; it exists only inside one `EDGE` step (R33, `spec/40_pulse_classifier.md` R103). -/
inductive PulseClass where
  /-- Narrower than any legal channel pulse. -/
  | noise
  /-- A channel pulse. -/
  | channel
  /-- A sync gap. -/
  | syncGap
deriving DecidableEq, Repr

/-- The five causes of a desync: labels of the spec, without a code and recorded in no register
(`spec/60_exceptions.md` rule R201). -/
inductive Cause where
  /-- A pulse below `CHANNEL_MIN_WIDTH`. -/
  | noise
  /-- More than `MAX_CHANNELS` pulses before a sync gap. -/
  | overflow
  /-- A mismatching frame close beyond the retry bound. -/
  | retry
  /-- The operation `STOP`. -/
  | stop
  /-- The operation `START`. -/
  | start
deriving DecidableEq, Repr

/-- The twelve registers of rule R20. Ticks and channel values are bit vectors of the spec's widths; the counts and
counters are bounded naturals, because the spec's own treatment of the encodings no rule produces is that the types of
a model exclude them (`spec/92_eei_decisions.md` D33; `spec/93_implementation_defined.md` U7;
DEDUCED, `notes/assumptions/4.md`). -/
structure Regs (c : Config) where
  /-- `run`: the block is started (R21). -/
  run : Bool
  /-- `fsm`: the state of the Frame State Machine (R22). -/
  fsm : Fsm
  /-- `prev_tick`: the previous-edge reference (R23). -/
  prevTick : BitVec c.tickW
  /-- `cand[]`: the pulse widths of the frame in progress (R24). -/
  cand : Vector (BitVec c.tickW) c.maxChannels
  /-- `cand_len`: the number of channel pulses accumulated (R25). -/
  candLen : Fin (c.maxChannels + 1)
  /-- `have_ref`: `ref_count` holds a learned count (R26). -/
  haveRef : Bool
  /-- `ref_count`: the tentative or confirmed count (R27). -/
  refCount : Fin (c.maxChannels + 1)
  /-- `stability`: consecutive frames with the count (R28). -/
  stability : Fin (c.stableCount + 1)
  /-- `mismatch`: mismatching closes since a count was last confirmed (R29). -/
  mismatch : Fin (c.retryBound + 1)
  /-- `pub_sync`: the published sync flag (R30). -/
  pubSync : SyncState
  /-- `pub_count`: the published channel count (R31). -/
  pubCount : Fin (c.maxChannels + 1)
  /-- `pub_ch[]`: the published channel values, two's complement (R32). -/
  pubCh : Vector (BitVec c.chvalW) c.maxChannels
deriving DecidableEq, Repr

/-- The state after reset: every register is zero (R44; `spec/70_reset_and_hazards.md` rule R240). -/
def Regs.reset (c : Config) : Regs c where
  run := false
  fsm := .notSynced
  prevTick := 0
  cand := Vector.replicate c.maxChannels 0
  candLen := 0
  haveRef := false
  refCount := 0
  stability := 0
  mismatch := 0
  pubSync := .notSynced
  pubCount := 0
  pubCh := Vector.replicate c.maxChannels 0

/-- What one step of the total order of all agents is (`spec/20_memory.md` rule R69): an operation on a port, by the
producer or by the consumer, or reset, "an event of its own, from outside both ports" (rule R240;
DEDUCED, `notes/assumptions/11.md`). -/
inductive Event (c : Config) where
  /-- The producer presents a command word, or the consumer samples the read port. -/
  | port (p : PortStep c)
  /-- Reset. -/
  | reset
deriving DecidableEq, Repr

/-- The block in the configuration `REF` (DESIGN CHOICE, `notes/assumptions/3.md`) and its surroundings. `regs` is the
whole state of the block (R20); `pending` and `reads` are the model's own fields (DESIGN CHOICE,
`notes/assumptions/1.md`), outside the block: the inputs not yet taken, in the order of rule R69, and the words the
consumer's `READ`s have returned, the latest first. -/
structure State where
  /-- The twelve registers. -/
  regs : Regs Config.ref
  /-- The steps the agents will take, in their order; a list, as U3 of `spec/93_implementation_defined.md` says. -/
  pending : List (Event Config.ref)
  /-- The frame words `READ` has returned to the consumer, the latest first. -/
  reads : List (BitVec Config.ref.frameW)
deriving DecidableEq, Repr

/-- The machine right after reset: every register zero (R44), nothing presented yet, nothing read yet. -/
def State.reset : State where
  regs := Regs.reset Config.ref
  pending := []
  reads := []

/-- The block raises no fault to anyone: "There is no fatal error path in the core" (`spec/60_exceptions.md` rule
R200). So there is no constructor (DEDUCED, `notes/assumptions/10.md`), and no step can end in a fault. Its one
reaction to every error is the desync, which is a next state. -/
inductive Fault
deriving DecidableEq, Repr

/-- Why a step has no successor. -/
inductive Refusal where
  /-- Raised by `exec` for an operation that has no meaning yet. Safe: nothing can be proved of it. -/
  | notModelled (mnemonic : String)
  /-- Raised by `EDGE` when `tick >= PERIOD`: "the source gives it no meaning and the spec gives it none: a model
  refuses the step" (`spec/30_encoding.md` rule R84; U1). Cannot be written in `REF`, where every 16-bit tick is below
  `PERIOD`. Safe: the step relation has no successor for it (DEDUCED, `notes/assumptions/7.md`). -/
  | tickOutOfRange (tick : Nat)
  /-- Raised by the port when a command word does not decode (rule R86), which is again the refusal of rule R84. Safe,
  and it cannot happen in `REF`. -/
  | undecodable (e : DecodeError)
deriving DecidableEq, Repr

end Sys2Proof.Machine
end

