-- ==== Sys2Proof/Machine/Operands.lean ====
section
/-! DEFINITION. The one operand of the block, the tick of `EDGE`, with its range check, and the contract of the
Timestamp Source that produces it (`spec/30_encoding.md` rules R83, R84; `spec/60_exceptions.md` rule R210). -/

namespace Sys2Proof.Machine

/-- The legal range of the operand, `0 <= tick < PERIOD` (R84). -/
def tickLegal (c : Config) (tick : Nat) : Bool := decide (tick < c.period)

/-- The operand as the register `prev_tick` holds it: unsigned, exactly as it stands, `TICK_W` bits (R83). -/
def tickBits (c : Config) (tick : Nat) : BitVec c.tickW := BitVec.ofNat c.tickW tick

/-- The Timestamp Source's counter at real time `t`, in ticks since it last was 0: it counts up by one, from 0 to
`PERIOD - 1`, then 0 again (R210). A contract of the environment, read by no operation (DESIGN CHOICE,
`notes/assumptions/13.md`). -/
def timestampAt (c : Config) (t : Nat) : Nat := t % c.period

/-- The tick a `GAP d` after an edge at `last` expands to: `(t_last + d) mod PERIOD` (`spec/30_encoding.md` rule R92 a, for
`0 <= d < PERIOD`). For a `d` of `PERIOD` or more the rule is silent: the model computes the same residue, so the block
measures `d mod PERIOD` (DESIGN CHOICE, unsafe, `notes/assumptions/16.md`). -/
def gapTick (c : Config) (last d : Nat) : Nat := (last + d) % c.period

/-- `<x>us` in a script: `x * TICKS_PER_US` ticks (`spec/30_encoding.md` rule R92 c). -/
def microsecondTicks (c : Config) (us : Nat) : Nat := us * c.ticksPerUs

end Sys2Proof.Machine
end

