-- ==== Sys2Proof/Machine/Ops.lean ====
section
/-! DEFINITION. The shared operations over the registers: the update of the previous-edge reference, the store's share
of a desync, and THE DESYNC, the block's one reaction to every error (`spec/60_exceptions.md` rule R200), which stands
where a processor has the taking of an exception. There is no return operation: recovery is by the signal, through
`Regs.openFrame` of `Sys2Proof/Machine/FrameFsm.lean` (rule R207). The block has no memory (`spec/20_memory.md` rule
R60), so there is no load and no store. -/

namespace Sys2Proof.Machine

variable {c : Config}

/-- `prev_tick <- tick` (`spec/40_pulse_classifier.md` rule R101). -/
def Regs.setPrevTick (r : Regs c) (tick : Nat) : Regs c :=
  { r with prevTick := tickBits c tick }

/-- `mark_not_synced`, the store's share of a desync: it clears only the sync flag (`spec/43_frame_store.md` rule
R162). -/
def Regs.markNotSynced (r : Regs c) : Regs c :=
  { r with pubSync := .notSynced }

/-- `DESYNC(cause)` (`spec/41_frame_fsm.md` rule R129): seven registers go to zero and the other five stay. The cause
selects nothing and is stored nowhere (rule R201). -/
def Regs.desync (r : Regs c) (_cause : Cause) : Regs c :=
  { r.markNotSynced with
    fsm := .notSynced
    candLen := 0
    haveRef := false
    refCount := 0
    stability := 0
    mismatch := 0 }

/-- The value 1 of the stability counter, which rule R17 clause d makes a value of its register. -/
def stabilityOne (c : Config) : Fin (c.stableCount + 1) :=
  ⟨1, by have := c.two_le_stableCount; omega⟩

/-- `stab' = min(stability + 1, STABLE_COUNT)` (`spec/41_frame_fsm.md` rule R127): the saturating step of the counter
(R28). -/
def stabilityNext (s : Fin (c.stableCount + 1)) : Fin (c.stableCount + 1) :=
  ⟨min (s.val + 1) c.stableCount, by omega⟩

/-- What an operation leaves, as an outcome of the machine: the registers it wrote, in place of the old. -/
def State.commit (s : State) (r : Except Refusal (Regs Config.ref)) :
    Host.Outcome State Fault Refusal :=
  match r with
  | .ok regs => .next { s with regs := regs }
  | .error e => .refused e

end Sys2Proof.Machine
end

