-- ==== Sys2Proof/Machine/Classifier.lean ====
section
/-! DEFINITION. The Pulse Classifier: the micro-operations `ELAPSED` and `CLASSIFY` (`spec/40_pulse_classifier.md`). -/

namespace Sys2Proof.Machine

/-- `ELAPSED`: `e = (tick - prev_tick) mod PERIOD`, the least non-negative residue (R100). -/
def elapsed (c : Config) (tick prev : Nat) : Nat :=
  (((tick : Int) - (prev : Int)) % (c.period : Int)).toNat

/-- `CLASSIFY`: the class of an elapsed value, by the two thresholds alone (R103, R105). -/
def classify (c : Config) (e : Nat) : PulseClass :=
  if c.syncThreshold ≤ e then .syncGap
  else if c.channelMinWidth ≤ e then .channel
  else .noise

/-- The elapsed value an `EDGE tick` measures against the previous-edge reference (R100). -/
def Regs.elapsedAt {c : Config} (r : Regs c) (tick : Nat) : Nat :=
  elapsed c tick r.prevTick.toNat

/-- The class an `EDGE tick` gets (R103). -/
def Regs.classAt {c : Config} (r : Regs c) (tick : Nat) : PulseClass :=
  classify c (r.elapsedAt tick)

end Sys2Proof.Machine
end

