-- ==== Sys2Proof/Machine/Converter.lean ====
section
/-! DEFINITION. The Channel Value Converter: the micro-operation `CONVERT` (`spec/42_converter.md`). -/

namespace Sys2Proof.Machine

/-- `CONVERT(e) = (e - CENTER_TICKS) * SCALE` on mathematical integers (R150), with no clamping (R151). -/
def convert (c : Config) (e : Nat) : Int :=
  ((e : Int) - (c.centerTicks : Int)) * (c.scale : Int)

/-- The conversion as a channel register holds it: two's complement, `CHVAL_W` bits (R150). -/
def convertBits (c : Config) (e : Nat) : BitVec c.chvalW :=
  BitVec.ofInt c.chvalW (convert c e)

end Sys2Proof.Machine
end

