-- ==== Sys2Proof/Machine/Flags.lean ====
section
/-! DEFINITION. The block's flags and enumerations as bits: the codes of `spec/30_encoding.md` rule R89, the status word
of rule R88, the conditions on the validator's flags that the spec names, and the width rule R20 gives each register.
There are no arithmetic condition codes. -/

namespace Sys2Proof.Machine

variable {c : Config}

/-- The code of the state of the Frame State Machine (R22, R89). -/
def Fsm.code : Fsm → BitVec 2
  | .notSynced => 0b00#2
  | .accumulating => 0b01#2
  | .synced => 0b10#2

/-- The state a code stands for; `2'b11` is no state (R42; `spec/93_implementation_defined.md` U7). -/
def Fsm.ofCode (b : BitVec 2) : Option Fsm :=
  if b = 0b00#2 then some .notSynced
  else if b = 0b01#2 then some .accumulating
  else if b = 0b10#2 then some .synced
  else none

/-- The code of SyncState (R30, R89). -/
def SyncState.code : SyncState → BitVec 1
  | .notSynced => 0b0#1
  | .synced => 0b1#1

/-- The code of a pulse class, for test benches; on no port (R33, R89). -/
def PulseClass.code : PulseClass → BitVec 2
  | .noise => 0b00#2
  | .channel => 0b01#2
  | .syncGap => 0b10#2

/-- The reference count is confirmed: `stability = STABLE_COUNT` (R27). -/
def Regs.confirmed (r : Regs c) : Bool := decide (r.stability.val = c.stableCount)

/-- The reference count is tentative: learned, and `stability < STABLE_COUNT` (R27). -/
def Regs.tentative (r : Regs c) : Bool := r.haveRef && decide (r.stability.val < c.stableCount)

/-- The low nine bits of the frame word taken alone, `{pub_count, pub_sync}` (R88). -/
def Regs.statusWord (r : Regs c) : BitVec 9 :=
  BitVec.ofNat 9 (r.pubSync.code.toNat + 2 * r.pubCount.val)

/-- A flag as one bit. -/
def flagBit (b : Bool) : Nat := if b then 1 else 0

/-- One register, or one entry of an indexed file, as rule R20 lists it: its width in bits and its value read as an
unsigned number of that width. -/
structure RegBits where
  /-- The width rule R20 gives it. -/
  width : Nat
  /-- Its value, unsigned. -/
  value : Nat
deriving DecidableEq, Repr

/-- The twelve registers with their widths, in the order of rule R20. -/
def Regs.bits (r : Regs c) : List RegBits :=
  [⟨1, flagBit r.run⟩, ⟨2, r.fsm.code.toNat⟩, ⟨c.tickW, r.prevTick.toNat⟩]
    ++ r.cand.toList.map (fun w => ⟨c.tickW, w.toNat⟩)
    ++ [⟨c.countW, r.candLen.val⟩, ⟨1, flagBit r.haveRef⟩, ⟨c.countW, r.refCount.val⟩, ⟨c.stabW, r.stability.val⟩,
        ⟨c.misW, r.mismatch.val⟩, ⟨1, r.pubSync.code.toNat⟩, ⟨c.countW, r.pubCount.val⟩]
    ++ r.pubCh.toList.map (fun w => ⟨c.chvalW, w.toNat⟩)

/-- The number of bits of the whole state, 433 in `REF` (R20). -/
def Regs.stateBits (r : Regs c) : Nat := (r.bits.map RegBits.width).sum

end Sys2Proof.Machine
end

