-- ==== Sys2Proof/Machine/Store.lean ====
section
/-! DEFINITION. The Published Frame Store: the micro-operation `PUBLISH`, the read frame word, and the consumer's
operation `READ` (`spec/43_frame_store.md`; `spec/30_encoding.md` rule R88). -/

namespace Sys2Proof.Machine

variable {c : Config}

/-- `PUBLISH(n)`: `pub_ch[i] <- CONVERT(cand[i])` for `i < n`, the entries from `n` up unchanged, `pub_count <- n`,
`pub_sync <- Synced`, all at once (R161). -/
def Regs.publish (r : Regs c) (n : Fin (c.maxChannels + 1)) : Regs c :=
  { r with
    pubCh := Vector.ofFn fun i : Fin c.maxChannels =>
      if i.val < n.val then convertBits c r.cand[i].toNat else r.pubCh[i]
    pubCount := n
    pubSync := .synced }

/-- Channel values packed with `w` bits each, the first lowest (R62, R88). -/
def packChannels (w : Nat) : List Nat → Nat
  | [] => 0
  | x :: xs => x + 2 ^ w * packChannels w xs

/-- The read frame word as an integer: `pub_sync + 2 * pub_count + sum of (pub_ch[i] mod 2^CHVAL_W) * 2^(9 + CHVAL_W *
i)` (R88). -/
def Regs.frameNumber (r : Regs c) : Nat :=
  r.pubSync.code.toNat + 2 * r.pubCount.val
    + 2 ^ 9 * packChannels c.chvalW (r.pubCh.toList.map BitVec.toNat)

/-- The read frame word `rd_frame`, `FRAME_W` bits, driven at all times with the contents of the store (R80, R88). -/
def Regs.rdFrame (r : Regs c) : BitVec c.frameW :=
  BitVec.ofNat c.frameW r.frameNumber

/-- The `sync` field of a frame word, `rd_frame[0]` (R88). -/
def frameSync (w : BitVec c.frameW) : SyncState :=
  if w.extractLsb' 0 1 = 1#1 then .synced else .notSynced

/-- The `count` field of a frame word, `rd_frame[8:1]` (R88). -/
def frameCount (w : BitVec c.frameW) : BitVec 8 := w.extractLsb' 1 8

/-- The `ch[i]` field of a frame word, `rd_frame[9 + CHVAL_W*i + CHVAL_W - 1 : 9 + CHVAL_W*i]`, signed (R88). Rule R88 has
the field for `i < MAX_CHANNELS`; at a greater `i` the model reads zeros (DESIGN CHOICE, unsafe, `notes/assumptions/14.md`). -/
def frameChannel (w : BitVec c.frameW) (i : Nat) : BitVec c.chvalW :=
  w.extractLsb' (9 + c.chvalW * i) c.chvalW

/-- Byte `k` of a frame word that a consumer cuts into bytes, `rd_frame[8k+7 : 8k]` (`spec/20_memory.md` rule R62). Bits at
and above `FRAME_W`, those of the last byte of `REF` (byte 33) and of every byte beyond it, are not the spec's: the model
fills them with zeros (DESIGN CHOICE, unsafe, `notes/assumptions/14.md`). -/
def frameByte (w : BitVec c.frameW) (k : Nat) : BitVec 8 := w.extractLsb' (8 * k) 8

/-- `READ`: the consumer is given `rd_frame`; no register is written (R163). -/
def execRead (s : State) : Host.Outcome State Fault Refusal :=
  .next { s with reads := s.regs.rdFrame :: s.reads }

end Sys2Proof.Machine
end

