-- ==== Sys2Proof/Machine/FrameFsm.lean ====
section
/-! DEFINITION. The `EDGE` operation, the Frame State Machine and the channel-count validator
(`spec/41_frame_fsm.md`). -/

namespace Sys2Proof.Machine

variable {c : Config}

/-- `OPEN_FRAME` (R122). -/
def Regs.openFrame (r : Regs c) : Regs c :=
  { r with fsm := .accumulating, candLen := 0 }

/-- `APPEND(e)`, performed only with `cand_len < MAX_CHANNELS`, so that the index exists (R124, R63). -/
def Regs.append (r : Regs c) (e : Nat) (h : r.candLen.val < c.maxChannels) : Regs c :=
  { r with
    cand := r.cand.set r.candLen.val (tickBits c e) h
    candLen := ⟨r.candLen.val + 1, by omega⟩ }

/-- A channel pulse in an open frame: `APPEND`, or the overflow when `cand_len = MAX_CHANNELS` (R124, R125). -/
def Regs.appendOrOverflow (r : Regs c) (e : Nat) : Regs c :=
  if h : r.candLen.val < c.maxChannels then r.append e h else r.desync .overflow

/-- The first-frame case of `CLOSE_FRAME` (R126). -/
def Regs.closeFirst (r : Regs c) : Regs c :=
  { r with
    refCount := r.candLen
    haveRef := true
    stability := stabilityOne c
    mismatch := 0
    candLen := 0 }

/-- The match case of `CLOSE_FRAME` (R127): it publishes when, and only when, the stability counter reaches
`STABLE_COUNT`. -/
def Regs.closeMatch (r : Regs c) : Regs c :=
  if (stabilityNext r.stability).val = c.stableCount then
    { r.publish r.candLen with
      stability := stabilityNext r.stability
      fsm := .synced
      mismatch := 0
      candLen := 0 }
  else
    { r with
      stability := stabilityNext r.stability
      candLen := 0 }

/-- The mismatch case of `CLOSE_FRAME` (R128): tolerated while `mismatch + 1 <= RETRY_BOUND`, else a desync. -/
def Regs.closeMismatch (r : Regs c) : Regs c :=
  if h : r.mismatch.val + 1 ≤ c.retryBound then
    { r with
      refCount := r.candLen
      stability := stabilityOne c
      mismatch := ⟨r.mismatch.val + 1, by omega⟩
      candLen := 0 }
  else r.desync .retry

/-- `CLOSE_FRAME`, the channel-count validator (R130). -/
def Regs.closeFrame (r : Regs c) : Regs c :=
  if r.haveRef = false then r.closeFirst
  else if r.candLen = r.refCount then r.closeMatch
  else r.closeMismatch

/-- What the Frame State Machine does with a pulse of class `cls` and width `e` (R120 to R130). -/
def Regs.pulse (r : Regs c) (cls : PulseClass) (e : Nat) : Regs c :=
  match cls with
  | .noise => r.desync .noise
  | .syncGap => if r.fsm = .notSynced then r.openFrame else r.closeFrame
  | .channel => if r.fsm = .notSynced then r else r.appendOrOverflow e

/-- `EDGE tick` on the registers (R120): nothing at all when stopped; else `ELAPSED`, `CLASSIFY`, the update of the
previous-edge reference, and the branch of the class. -/
def Regs.edge (r : Regs c) (tick : Nat) : Regs c :=
  if r.run then (r.setPrevTick tick).pulse (r.classAt tick) (r.elapsedAt tick) else r

/-- `EDGE tick` with the operand checked by rule R84: a tick of `PERIOD` or more is refused (U1). -/
def Regs.edgeChecked (r : Regs c) (tick : Nat) : Except Refusal (Regs c) :=
  if tickLegal c tick then .ok (r.edge tick) else .error (.tickOutOfRange tick)

/-- `EDGE tick` (R120). -/
def execEdge (tick : Nat) (s : State) : Host.Outcome State Fault Refusal :=
  s.commit (s.regs.edgeChecked tick)

end Sys2Proof.Machine
end

