-- ==== Sys2Proof/Machine/Lifecycle.lean ====
section
/-! DEFINITION. The lifecycle operations `NOP`, `START`, `STOP` (`spec/44_lifecycle.md`). -/

namespace Sys2Proof.Machine

variable {c : Config}

/-- `NOP` on the registers: none is read or written (R180). -/
def Regs.nop (r : Regs c) : Regs c := r

/-- `START` on the registers (R181). -/
def Regs.start (r : Regs c) : Regs c :=
  { r.desync .start with prevTick := 0, pubCount := 0, run := true }

/-- `STOP` on the registers (R182). -/
def Regs.stop (r : Regs c) : Regs c :=
  { r.desync .stop with run := false }

/-- `NOP` (R180). -/
def execNop (s : State) : Host.Outcome State Fault Refusal :=
  s.commit (.ok s.regs.nop)

/-- `START` (R181). -/
def execStart (s : State) : Host.Outcome State Fault Refusal :=
  s.commit (.ok s.regs.start)

/-- `STOP` (R182). -/
def execStop (s : State) : Host.Outcome State Fault Refusal :=
  s.commit (.ok s.regs.stop)

end Sys2Proof.Machine
end

