-- ==== Sys2Proof/Machine/Port.lean ====
section
/-! DEFINITION. How the next operation reaches the block: the ports and reset (`spec/30_encoding.md` rule R80;
`spec/20_memory.md` rules R69, R70; `spec/70_reset_and_hazards.md` rule R240). The block has no program counter and
fetches nothing (`spec/10_state.md` rule R35): what it does next is what the agents present next. -/

namespace Sys2Proof.Machine

/-- What a port carries is decoded and done; a word that does not decode is refused by name (R86). -/
def doPort (p : PortStep Config.ref) (s : State) : Host.Outcome State Fault Refusal :=
  match decode Config.ref p with
  | .ok i => exec i s
  | .error e => .refused (.undecodable e)

/-- Reset: every register goes to the value of rule R44, whatever it was; what the agents present next and what the
consumer has read lie outside the block and stay (R240). -/
def doReset (s : State) : State :=
  { s with regs := Regs.reset Config.ref }

/-- One step: the first of the pending events is taken and done. With nothing presented, the command port carries its
idle value, `NOP` (`spec/44_lifecycle.md` rule R180): "the block itself makes no step on its own" (R19; DESIGN
CHOICE, `notes/assumptions/2.md`). -/
def takeStep (s : State) : Host.Outcome State Fault Refusal :=
  match s.pending with
  | [] => exec .nop s
  | .reset :: rest => .next (doReset { s with pending := rest })
  | .port p :: rest => doPort p { s with pending := rest }

/-- Present a port step before everything that is pending. -/
def present (s : State) (p : PortStep Config.ref) : State :=
  { s with pending := .port p :: s.pending }

end Sys2Proof.Machine
end

