-- ==== Sys2Proof/Machine/Step.lean ====
section
/-! DEFINITION. The step of the machine, and how a word is placed where the next step takes it. -/

namespace Sys2Proof.Machine

/-- One step of the total order of all agents (`spec/20_memory.md` rule R69). -/
def step (s : State) : Host.Outcome State Fault Refusal := takeStep s

/-- `s` with the word `w` of an opcode-table row of `nbits` bits presented next: on the command port, or, for the row
of `READ`, as a sampling of the read port. A number too great for the command port is cut to its low bits, and the next
step runs those, as `portStepOf` says (DESIGN CHOICE, unsafe, `notes/assumptions/8.md`). -/
def State.withFetchWord (s : State) (nbits w : Nat) : State :=
  present s (portStepOf Config.ref nbits w)

end Sys2Proof.Machine
end

