-- ==== Sys2Proof/Machine/AnyConfig.lean ====
section
/-! DEFINITION. The block in ANY well-formed configuration (`spec/00_scope.md` rules R17, R18; `spec/10_state.md` rule
R34: the configuration is a parameter of the step relation): the five operations, reset and finite runs over the
registers alone. `exec` and `step` are this block built with `REF`, inside its surroundings. -/

namespace Sys2Proof.Machine

variable {c : Config}

/-- One operation on the registers of the block built with `c`; the only refusal is that of rule R84. -/
def operate (i : Instr) (r : Regs c) : Except Refusal (Regs c) :=
  match i with
  | .nop => .ok r.nop
  | .edge tick => r.edgeChecked tick
  | .start => .ok r.start
  | .stop => .ok r.stop
  | .read => .ok r

/-- What an operation returns to its issuer: the frame word for `READ`, nothing for the others, since the command port
has no output (`spec/30_encoding.md` rule R80; `spec/43_frame_store.md` rule R163). -/
def result (i : Instr) (r : Regs c) : Option (BitVec c.frameW) :=
  match i with
  | .nop => none
  | .edge _ => none
  | .start => none
  | .stop => none
  | .read => some r.rdFrame

/-- One event: an operation on a port, decoded, or reset (`spec/70_reset_and_hazards.md` rule R240). -/
def doEvent (e : Event c) (r : Regs c) : Except Refusal (Regs c) :=
  match e with
  | .reset => .ok (Regs.reset c)
  | .port p =>
    match decode c p with
    | .ok i => operate i r
    | .error e => .error (.undecodable e)

/-- A finite sequence of operations, in order, stopping at the first refusal (`spec/20_memory.md` rule R69). -/
def runInstrs : List Instr → Regs c → Except Refusal (Regs c)
  | [], r => .ok r
  | i :: is, r =>
    match operate i r with
    | .ok r' => runInstrs is r'
    | .error e => .error e

/-- A finite sequence of events, in order, stopping at the first refusal. -/
def runEvents : List (Event c) → Regs c → Except Refusal (Regs c)
  | [], r => .ok r
  | e :: es, r =>
    match doEvent e r with
    | .ok r' => runEvents es r'
    | .error e => .error e

/-- The words the `READ`s of a run return, the earliest first. -/
def readsOf : List Instr → Regs c → List (BitVec c.frameW)
  | [], _ => []
  | i :: is, r =>
    (result i r).toList ++
      match operate i r with
      | .ok r' => readsOf is r'
      | .error _ => []

end Sys2Proof.Machine
end

