-- ==== Sys2Proof/Machine/Script.lean ====
section
/-! DEFINITION. The stimulus notation, the block's "assembly" (`spec/30_encoding.md` rules R91, R92): scripts, their
expansion into operations, and the check of the results a script states. -/

namespace Sys2Proof.Machine

/-- The result a `READ` line may state, `-> sync=<0|1> count=<c> ch=[v0, v1, …]` (R91). -/
structure Expect where
  /-- The expected `sync`. -/
  sync : SyncState
  /-- The expected `count`. -/
  count : Nat
  /-- The expected values of the first channels; the channels beyond those listed are not checked. -/
  channels : List Int
deriving DecidableEq, Repr

/-- A script: lines and pseudo-operations, executed top to bottom (R91, R92; DESIGN CHOICE,
`notes/assumptions/12.md`). -/
inductive Script where
  /-- The line `NOP`. -/
  | nop
  /-- The line `EDGE <t>`; R91 has it for `0 <= t < PERIOD`, see `Script.events`. -/
  | edge (t : Nat)
  /-- The line `START`. -/
  | start
  /-- The line `STOP`. -/
  | stop
  /-- The line `READ`, with the result it may state. -/
  | read (expect : Option Expect)
  /-- `GAP <d>` (R92 a), for `0 <= d < PERIOD`; beyond it, see `gapTick`. -/
  | gap (d : Nat)
  /-- `FRAME <w1> … <wn> / <g>` (R92 b), each width as in a `GAP`. -/
  | frame (widths : List Nat) (g : Nat)
  /-- `REPEAT <k> …` (R92 d). -/
  | rep (k : Nat) (body : Script)
  /-- One part after another. -/
  | seq (a b : Script)
deriving DecidableEq, Repr

/-- One step of an expanded script. -/
structure ScriptStep where
  /-- The operation. -/
  instr : Instr
  /-- The result the line states, on a `READ` line. -/
  expect : Option Expect
deriving DecidableEq, Repr

/-- The `EDGE`s that `GAP`s of the given widths expand to, after an edge at `last`, with the tick of the last of them
(R92 a). -/
def gapEdges (c : Config) : Nat → List Nat → List Instr × Nat
  | last, [] => ([], last)
  | last, d :: ds =>
    let rest := gapEdges c (gapTick c last d) ds
    (.edge (gapTick c last d) :: rest.1, rest.2)

/-- `k` times the same expansion, threading the tick of the last edge (R92 d). -/
def iterateExpansion (f : Nat → List ScriptStep × Nat) : Nat → Nat → List ScriptStep × Nat
  | 0, last => ([], last)
  | k + 1, last =>
    let a := f last
    let b := iterateExpansion f k a.2
    (a.1 ++ b.1, b.2)

/-- The expansion of a script from the assembler's variable `t_last`, and its value after: the tick of the last `EDGE`
emitted, set to 0 after every `START` line (R92). -/
def Script.expand (c : Config) : Script → Nat → List ScriptStep × Nat
  | .nop, last => ([⟨.nop, none⟩], last)
  | .edge t, _ => ([⟨.edge t, none⟩], t)
  | .start, _ => ([⟨.start, none⟩], 0)
  | .stop, last => ([⟨.stop, none⟩], last)
  | .read e, last => ([⟨.read, e⟩], last)
  | .gap d, last =>
    let g := gapEdges c last [d]
    (g.1.map (⟨·, none⟩), g.2)
  | .frame widths g, last =>
    let es := gapEdges c last (widths ++ [g])
    (es.1.map (⟨·, none⟩), es.2)
  | .rep k body, last => iterateExpansion (body.expand c) k last
  | .seq a b, last =>
    let ea := a.expand c last
    let eb := b.expand c ea.2
    (ea.1 ++ eb.1, eb.2)

/-- The steps of a script, from its start, where `t_last` is 0 (R92). -/
def Script.steps (c : Config) (s : Script) : List ScriptStep := (s.expand c 0).1

/-- The operations of a script. -/
def Script.instrs (c : Config) (s : Script) : List Instr := (s.steps c).map ScriptStep.instr

/-- A script as the events it presents to the block (R91): a command word for each line but `READ`, which marks a
consumer step at that point of the total order. Rule R91 bounds the `t` of an `EDGE` line below `PERIOD` and does not say
what the assembler does with another: the model assembles no script that has one, as `checkSteps` refuses it (DESIGN
CHOICE, safe, `notes/assumptions/15.md`). -/
def Script.events (c : Config) (s : Script) : Option (List (Event c)) :=
  if (s.instrs c).all (Instr.wellFormed c) then some ((s.instrs c).map fun i => .port (encode c i)) else none

/-- A frame word has the fields a `READ` line states (R91); what a line may list beyond `MAX_CHANNELS` channels, see
`frameChannel`. -/
def Expect.meets {c : Config} (x : Expect) (w : BitVec c.frameW) : Bool :=
  decide (frameSync w = x.sync) && decide ((frameCount w).toNat = x.count)
    && (x.channels.mapIdx fun i v => decide ((frameChannel w i).toInt = v)).all id

/-- Run the steps of a script; `none` when a step is refused or a `READ` does not return what its line states. -/
def checkSteps {c : Config} : List ScriptStep → Regs c → Option (Regs c)
  | [], r => some r
  | st :: rest, r =>
    if (st.expect.map fun x => ((result st.instr r).map x.meets).getD true).getD true then
      match operate st.instr r with
      | .ok r' => checkSteps rest r'
      | .error _ => none
    else none

end Sys2Proof.Machine
end

