-- ==== Sys2Proof/Safety.lean ====
section
/-! DEFINITION. What a safe state is, in the terms the statements use: the invariants of `spec/10_state.md` rules R36 to
R42, which rule R42 and U7 of `spec/93_implementation_defined.md` make the states of the block, and the words for
signals and frames that rules R40, R132 and R255 use. -/

namespace Sys2Proof.Machine

variable {c : Config}

/-- The invariants of rules R36 to R39 and R41, carried and not enforced (DESIGN CHOICE, `notes/assumptions/5.md`). The
ranges of the counts and counters in rules R39 and R41, and rule R42, hold by the types of `Regs`. -/
structure Regs.Inv (r : Regs c) : Prop where
  /-- R36: `pub_sync = Synced` if and only if `fsm = Synced`. -/
  sync_iff : r.pubSync = .synced ↔ r.fsm = .synced
  /-- R37: `run = 0` implies `fsm = NotSynced`. -/
  stopped : r.run = false → r.fsm = .notSynced
  /-- R38: what `fsm = NotSynced` implies (its `pub_sync` clause is R36). -/
  idle : r.fsm = .notSynced →
    r.candLen = 0 ∧ r.haveRef = false ∧ r.refCount = 0 ∧ r.stability = 0 ∧ r.mismatch = 0
  /-- R39: what `have_ref = 0` implies. -/
  unlearned : r.haveRef = false → r.refCount = 0 ∧ r.stability = 0 ∧ r.mismatch = 0
  /-- R39: what `have_ref = 1` implies. -/
  learned : r.haveRef = true → 1 ≤ r.stability.val ∧ r.fsm ≠ .notSynced
  /-- R39: `mismatch > 0` implies `stability < STABLE_COUNT`. -/
  tentative : 0 < r.mismatch.val → r.stability.val < c.stableCount
  /-- R39: `fsm = Accumulating` implies `stability < STABLE_COUNT`. -/
  accumulating : r.fsm = .accumulating → r.stability.val < c.stableCount
  /-- R39: `fsm = Synced` implies `have_ref = 1`. -/
  synced : r.fsm = .synced → r.haveRef = true
  /-- R41: `prev_tick < PERIOD`. -/
  prevTick_lt : r.prevTick.toNat < c.period
  /-- R41: the pulse widths accumulated are channel widths. -/
  cand_range : ∀ i : Fin c.maxChannels, i.val < r.candLen.val →
    c.channelMinWidth ≤ r.cand[i].toNat ∧ r.cand[i].toNat < c.syncThreshold

/-- A width that is a channel pulse: `[CHANNEL_MIN_WIDTH, SYNC_THRESHOLD)` (R132). -/
abbrev IsChannelWidth (c : Config) (w : Nat) : Prop := c.channelMinWidth ≤ w ∧ w < c.syncThreshold

/-- A width that is a sync gap and that the counter can measure: `[SYNC_THRESHOLD, PERIOD)` (R103, R105). -/
abbrev IsGapWidth (c : Config) (g : Nat) : Prop := c.syncThreshold ≤ g ∧ g < c.period

/-- A frame of a signal: the widths of its channel pulses and of the sync gap that closes it. -/
structure Frame where
  /-- The widths of the channel pulses, in order. -/
  widths : List Nat
  /-- The width of the closing sync gap. -/
  gap : Nat
deriving DecidableEq, Repr

/-- A clean frame of `w` channel pulses (R132). -/
abbrev Frame.Clean (c : Config) (w : Nat) (f : Frame) : Prop :=
  f.widths.length = w ∧ (∀ x ∈ f.widths, IsChannelWidth c x) ∧ IsGapWidth c f.gap

/-- The intervals of a sequence of frames: the pulses of each and the gap that closes it. -/
def frameIntervals (frames : List Frame) : List Nat :=
  frames.flatMap fun f => f.widths ++ [f.gap]

/-- The intervals of a signal: a leading sync gap, then frames (R132; `spec/90_conflicts.md` C7). -/
def signal (lead : Nat) (frames : List Frame) : List Nat :=
  lead :: frameIntervals frames

/-- The `EDGE`s by which a signal is reported, after an edge at the previous-edge reference of `r` (R92 a, R211). -/
def Regs.reported (r : Regs c) (intervals : List Nat) : List Instr :=
  (gapEdges c r.prevTick.toNat intervals).1

/-- The published frame is the frame of widths `ws`: synced, with its count and the conversions of its pulses (R132). -/
def Regs.Shows (r : Regs c) (ws : List Nat) : Prop :=
  r.pubSync = .synced ∧ r.pubCount.val = ws.length ∧
    ∀ (i : Nat) (h : i < ws.length) (h' : i < c.maxChannels), r.pubCh[i] = convertBits c ws[i]

/-- The pulse count of the frame an operation closes, if it closes one (R130). -/
def Regs.closes (r : Regs c) (i : Instr) : Option Nat :=
  match i with
  | .edge tick =>
    if r.run = true ∧ r.classAt tick = .syncGap ∧ r.fsm ≠ .notSynced then some r.candLen.val else none
  | .nop => none
  | .start => none
  | .stop => none
  | .read => none

/-- An operation publishes: it closes a frame in the match case and the stability counter reaches `STABLE_COUNT`
(R127, R161). -/
def Regs.Publishes (r : Regs c) (i : Instr) : Prop :=
  r.closes i = some r.refCount.val ∧ r.haveRef = true ∧ (stabilityNext r.stability).val = c.stableCount

/-- The pulse counts of the frames closed in a run, the latest first (R40). -/
def closedCounts : List Instr → Regs c → List Nat → List Nat
  | [], _, acc => acc
  | i :: is, r, acc =>
    match operate i r with
    | .ok r' => closedCounts is r' ((r.closes i).toList ++ acc)
    | .error _ => acc

/-- The frames closed last, as many as the stability counter says, all had the reference count; `closed` lists the pulse
counts of the frames closed, the latest first (R28, R40). -/
def Regs.Debounced (r : Regs c) (closed : List Nat) : Prop :=
  closed.take r.stability.val = List.replicate r.stability.val r.refCount.val

/-- A run in which the block is `Synced` throughout and publishes nothing (R255). -/
def SilentSynced : List Instr → Regs c → Prop
  | [], r => r.pubSync = .synced
  | i :: is, r =>
    r.pubSync = .synced ∧ ¬ r.Publishes i ∧
      match operate i r with
      | .ok r' => SilentSynced is r'
      | .error _ => False

/-- The number of sync gaps the block measures while started, in a run. -/
def gapsSeen : List Instr → Regs c → Nat
  | [], _ => 0
  | i :: is, r =>
    (match i with
      | .edge tick => if r.run = true ∧ r.classAt tick = .syncGap then 1 else 0
      | .nop => 0
      | .start => 0
      | .stop => 0
      | .read => 0) +
      match operate i r with
      | .ok r' => gapsSeen is r'
      | .error _ => 0

/-- An operation that the consumer issues (`spec/00_scope.md` rule R19). -/
def isRead : Instr → Bool
  | .read => true
  | .nop => false
  | .edge _ => false
  | .start => false
  | .stop => false

end Sys2Proof.Machine
end

