-- ==== Sys2Proof/Certificates/Slice0/Obligations.lean ====
section
/-! DEFINITION. The statements for the provers. Where a statement is about `exec` or `step` it is about the block built
with `REF`, and its numbers are those of `REF` (`spec/00_scope.md` rule R17); where it is about `operate`, `runInstrs` or
`doEvent` it is about the block built with any well-formed configuration `c`. The rules R36 to R41, R43, R86, R90, R93,
R102, R104, R131, R132, R151, R152, R204, R207, R208, R255, R256 are marked in `spec/` as derived: they are the spec's own
inferences from its other rules, and a statement that rests on one is listed as derived. -/

open Sys2Proof Sys2Proof.Machine

namespace Sys2Proof.Statements

/-- The registers after a desync, written out from `spec/41_frame_fsm.md` rule R129: seven are zero, five stay. -/
def desynced {c : Config} (r : Regs c) : Regs c :=
  { r with
    fsm := .notSynced, pubSync := .notSynced, candLen := 0, haveRef := false, refCount := 0, stability := 0,
    mismatch := 0 }

/-- The block is started and an `EDGE tick`, with `tick` in its range, measures the elapsed value `e`, in `REF`
(`spec/40_pulse_classifier.md` rule R100). -/
def Measures (s : State) (tick e : Nat) : Prop :=
  s.regs.run = true ∧ tick < 65536 ∧ e = (tick + 65536 - s.regs.prevTick.toNat) % 65536

/-- The surroundings of the block with the registers `r` in it. -/
def withRegs (s : State) (r : Regs Config.ref) : State := { s with regs := r }

end Sys2Proof.Statements

open Sys2Proof.Statements

/-! ## Reset -/

/-- `spec/10_state.md` rule R44: after reset every register of rule R20 is zero, in every configuration; that is the state
`START` produces, but for `run` and the two files, which `START` does not clear. -/
def Obligations.ResetZeroesEveryRegister : Prop :=
  ∀ c : Config,
    (Regs.reset c).run = false ∧ (Regs.reset c).fsm = .notSynced ∧ (Regs.reset c).prevTick = 0 ∧
    (∀ i : Fin c.maxChannels, (Regs.reset c).cand[i] = 0) ∧ (Regs.reset c).candLen = 0 ∧
    (Regs.reset c).haveRef = false ∧ (Regs.reset c).refCount = 0 ∧ (Regs.reset c).stability = 0 ∧
    (Regs.reset c).mismatch = 0 ∧ (Regs.reset c).pubSync = .notSynced ∧ (Regs.reset c).pubCount = 0 ∧
    (∀ i : Fin c.maxChannels, (Regs.reset c).pubCh[i] = 0) ∧
    ∀ r : Regs c,
      { r.start with run := false, cand := (Regs.reset c).cand, pubCh := (Regs.reset c).pubCh } = Regs.reset c

/-- `spec/70_reset_and_hazards.md` rule R240: reset, taken in any state, leaves every register at the value of rule
R44 and reads nothing. That it leaves what is pending and what was read is the model's own (`notes/assumptions/1.md`). -/
def Obligations.ResetStepFromAnyState : Prop :=
  ∀ (s : State) (rest : List (Event Config.ref)), s.pending = .reset :: rest →
    step s = .next { s with regs := Regs.reset Config.ref, pending := rest }

/-! ## The lifecycle operations and READ -/

/-- `spec/44_lifecycle.md` rule R180: after `NOP` the same state, from any state. -/
def Obligations.NopChangesNothing : Prop :=
  ∀ s : State, exec .nop s = .next s

/-- `spec/44_lifecycle.md` rule R181: `START` from any state desynchronises, clears the previous-edge reference and the
published count, starts the block, and leaves `cand[]` and `pub_ch[]`. -/
def Obligations.StartClearsAllButTheFiles : Prop :=
  ∀ s : State, exec .start s = .next (withRegs s { desynced s.regs with prevTick := 0, pubCount := 0, run := true })

/-- `spec/44_lifecycle.md` rule R182: `STOP` from any state desynchronises and stops the block, and leaves
`prev_tick`, `pub_count`, `cand[]` and `pub_ch[]`. -/
def Obligations.StopDesyncsAndStops : Prop :=
  ∀ s : State, exec .stop s = .next (withRegs s { desynced s.regs with run := false })

/-- `spec/43_frame_store.md` rule R163, in every configuration: `READ` returns `rd_frame`, made of the registers as they
are, whatever `pub_sync` is; it writes no register; and it never fails. -/
def Obligations.ReadReturnsTheFrameWord : Prop :=
  ∀ (c : Config) (r : Regs c), result .read r = some r.rdFrame ∧ operate .read r = .ok r

/-- `READ` on the machine: it always completes, writes no register, and the consumer is given the frame word. That the word
is kept in `reads` is the model's own (`notes/assumptions/1.md`). -/
def Obligations.ReadGivesTheConsumerTheWord : Prop :=
  ∀ s : State, exec .read s = .next { s with reads := s.regs.rdFrame :: s.reads }

/-- `spec/30_encoding.md` rule R88: the frame word as an integer, and its three fields cut from their bits, in every
configuration. -/
def Obligations.FrameWordLayout : Prop :=
  ∀ (c : Config) (r : Regs c),
    r.rdFrame.toNat = (if r.pubSync = .synced then 1 else 0) + 2 * r.pubCount.val
      + ∑ i : Fin c.maxChannels, r.pubCh[i].toNat * 2 ^ (9 + c.chvalW * i.val) ∧
    (r.rdFrame.getLsbD 0 = true ↔ r.pubSync = .synced) ∧
    (r.rdFrame.extractLsb' 1 8).toNat = r.pubCount.val ∧
    (∀ i : Fin c.maxChannels, r.rdFrame.extractLsb' (9 + c.chvalW * i.val) c.chvalW = r.pubCh[i]) ∧
    r.rdFrame.extractLsb' 0 9 = r.statusWord

/-! ## EDGE, branch by branch, in REF -/

/-- `spec/41_frame_fsm.md` rule R120: an `EDGE` with `run` = 0 changes nothing, `prev_tick` included. -/
def Obligations.EdgeWhileStoppedChangesNothing : Prop :=
  ∀ (s : State) (tick : Nat), tick < 65536 → s.regs.run = false → exec (.edge tick) s = .next s

/-- `spec/41_frame_fsm.md` rules R121, R129: a pulse below `CHANNEL_MIN_WIDTH` desynchronises in any `fsm` state;
besides the registers of the desync only `prev_tick` is written. -/
def Obligations.NoiseDesyncs : Prop :=
  ∀ (s : State) (tick e : Nat), Measures s tick e → e < 1000 →
    exec (.edge tick) s = .next (withRegs s { desynced s.regs with prevTick := BitVec.ofNat _ tick })

/-- `spec/41_frame_fsm.md` rule R122: a sync gap in `NotSynced` opens a frame. -/
def Obligations.SyncGapOpensFrame : Prop :=
  ∀ (s : State) (tick e : Nat), Measures s tick e → 6600 ≤ e → s.regs.fsm = .notSynced →
    exec (.edge tick) s =
      .next (withRegs s { s.regs with fsm := .accumulating, candLen := 0, prevTick := BitVec.ofNat _ tick })

/-- `spec/41_frame_fsm.md` rule R123: a channel pulse in `NotSynced` changes only `prev_tick`. -/
def Obligations.ChannelPulseIgnoredWhileNotSynced : Prop :=
  ∀ (s : State) (tick e : Nat), Measures s tick e → 1000 ≤ e → e < 6600 → s.regs.fsm = .notSynced →
    exec (.edge tick) s = .next (withRegs s { s.regs with prevTick := BitVec.ofNat _ tick })

/-- `spec/41_frame_fsm.md` rule R124: a channel pulse in an open frame that is not full is stored at index `cand_len`,
and `cand_len` goes up by one; the other entries of `cand[]` and all other registers but `prev_tick` stay. -/
def Obligations.ChannelPulseAppended : Prop :=
  ∀ (s : State) (tick e : Nat), Measures s tick e → 1000 ≤ e → e < 6600 → s.regs.fsm ≠ .notSynced →
    s.regs.candLen.val < 8 →
    ∃ (cand : Vector (BitVec Config.ref.tickW) Config.ref.maxChannels) (len : Fin (Config.ref.maxChannels + 1)),
      exec (.edge tick) s =
        .next (withRegs s { s.regs with cand := cand, candLen := len, prevTick := BitVec.ofNat _ tick }) ∧
      len.val = s.regs.candLen.val + 1 ∧
      ∀ i : Fin Config.ref.maxChannels,
        cand[i] = if i.val = s.regs.candLen.val then BitVec.ofNat _ e else s.regs.cand[i]

/-- `spec/41_frame_fsm.md` rule R125: a channel pulse in a full frame desynchronises and is not stored. -/
def Obligations.OverflowDesyncs : Prop :=
  ∀ (s : State) (tick e : Nat), Measures s tick e → 1000 ≤ e → e < 6600 → s.regs.fsm ≠ .notSynced →
    s.regs.candLen.val = 8 →
    exec (.edge tick) s = .next (withRegs s { desynced s.regs with prevTick := BitVec.ofNat _ tick })

/-- `spec/41_frame_fsm.md` rule R126: the first frame closed since `NotSynced` only records its count, tentatively. -/
def Obligations.FirstFrameRecordsItsCount : Prop :=
  ∀ (s : State) (tick e : Nat), Measures s tick e → 6600 ≤ e → s.regs.fsm ≠ .notSynced → s.regs.haveRef = false →
    exec (.edge tick) s =
      .next (withRegs s
        { s.regs with
          refCount := s.regs.candLen, haveRef := true, stability := ⟨1, by decide⟩, mismatch := 0, candLen := 0,
          prevTick := BitVec.ofNat _ tick })

/-- `spec/41_frame_fsm.md` rule R127 and `spec/43_frame_store.md` rule R161, in `REF`, where every match with a count
learned (`stability >= 1`) reaches `STABLE_COUNT` = 2: the frame is converted and published, all in this step; the
channels from the count up stay. -/
def Obligations.MatchingFramePublished : Prop :=
  ∀ (s : State) (tick e : Nat), Measures s tick e → 6600 ≤ e → s.regs.fsm ≠ .notSynced → s.regs.haveRef = true →
    s.regs.candLen = s.regs.refCount → 1 ≤ s.regs.stability.val →
    ∃ ch : Vector (BitVec Config.ref.chvalW) Config.ref.maxChannels,
      exec (.edge tick) s =
        .next (withRegs s
          { s.regs with
            pubCh := ch, pubCount := s.regs.candLen, pubSync := .synced, fsm := .synced, stability := ⟨2, by decide⟩,
            mismatch := 0, candLen := 0, prevTick := BitVec.ofNat _ tick }) ∧
      ∀ i : Fin Config.ref.maxChannels,
        ch[i] = if i.val < s.regs.candLen.val then BitVec.ofInt _ (((s.regs.cand[i].toNat : Int) - 3000) * 10)
          else s.regs.pubCh[i]

/-- `spec/41_frame_fsm.md` rule R128, while `mismatch + 1 <= RETRY_BOUND` = 3: the new count becomes the tentative one;
`fsm` and the store stay. -/
def Obligations.MismatchTolerated : Prop :=
  ∀ (s : State) (tick e : Nat), Measures s tick e → 6600 ≤ e → s.regs.fsm ≠ .notSynced → s.regs.haveRef = true →
    s.regs.candLen ≠ s.regs.refCount → s.regs.mismatch.val < 3 →
    ∃ mis : Fin (Config.ref.retryBound + 1),
      exec (.edge tick) s =
        .next (withRegs s
          { s.regs with
            refCount := s.regs.candLen, stability := ⟨1, by decide⟩, mismatch := mis, candLen := 0,
            prevTick := BitVec.ofNat _ tick }) ∧
      mis.val = s.regs.mismatch.val + 1

/-- `spec/41_frame_fsm.md` rule R128, when `mismatch + 1 > RETRY_BOUND` = 3: the desync; no frame is opened. -/
def Obligations.MismatchBeyondRetryBoundDesyncs : Prop :=
  ∀ (s : State) (tick e : Nat), Measures s tick e → 6600 ≤ e → s.regs.fsm ≠ .notSynced → s.regs.haveRef = true →
    s.regs.candLen ≠ s.regs.refCount → s.regs.mismatch.val = 3 →
    exec (.edge tick) s = .next (withRegs s { desynced s.regs with prevTick := BitVec.ofNat _ tick })

/-- The frame of `EDGE`, an inference from what its branches write (`spec/10_state.md` rules R21, R24, R26 to R32;
`spec/41_frame_fsm.md` rules R124, R126 to R129; `spec/43_frame_store.md` rule R161) and finer than the table of rule R43,
which the spec marks as derived from rules R21 to R32. When `EDGE` gives a next state: `run` stays; only the entry of
`cand[]` at `cand_len`, and only the entries of `pub_ch[]` below `cand_len`, can change; a step that does not end `Synced`
leaves the count and channels of the store; a step that is not a frame close leaves the learned count alone unless it
desynchronises. That `pending` and `reads` stay is about the model's own fields (`notes/assumptions/1.md`). -/
def Obligations.EdgeFrame : Prop :=
  ∀ (s t : State) (tick : Nat), exec (.edge tick) s = .next t →
    t.pending = s.pending ∧ t.reads = s.reads ∧ t.regs.run = s.regs.run ∧
    (∀ i : Fin Config.ref.maxChannels, i.val ≠ s.regs.candLen.val → t.regs.cand[i] = s.regs.cand[i]) ∧
    (∀ i : Fin Config.ref.maxChannels, s.regs.candLen.val ≤ i.val → t.regs.pubCh[i] = s.regs.pubCh[i]) ∧
    (t.regs.pubSync ≠ .synced → t.regs.pubCount = s.regs.pubCount ∧ t.regs.pubCh = s.regs.pubCh) ∧
    (s.regs.classAt tick ≠ .syncGap → t.regs.fsm ≠ .notSynced →
      t.regs.haveRef = s.regs.haveRef ∧ t.regs.refCount = s.regs.refCount ∧ t.regs.stability = s.regs.stability ∧
      t.regs.mismatch = s.regs.mismatch ∧ t.regs.pubCount = s.regs.pubCount ∧ t.regs.pubCh = s.regs.pubCh)

/-! ## EDGE in any configuration -/

/-- `spec/30_encoding.md` rule R84 (U1): an `EDGE` whose tick is not below `PERIOD` is refused. That it is refused whatever
the registers are, in a stopped block too (where rule R120 makes a legal `EDGE` a no-op), and that the decoder refuses its
word by the same name, is the model's reading (DEDUCED, `notes/assumptions/7.md`). In `REF` this refusal has no instance
among the words of the port. -/
def Obligations.TickBeyondPeriodRefused : Prop :=
  ∀ (c : Config) (r : Regs c) (tick : Nat), c.period ≤ tick →
    operate (.edge tick) r = .error (.tickOutOfRange tick) ∧
    (tick < 2 ^ c.tickW → decode c (.command (commandWord c opEdge tick)) = .error (.tickOutOfRange tick))

/-- `spec/41_frame_fsm.md` rule R127, its other half, which `REF` hides: a match that does not reach `STABLE_COUNT` is
counted and its frame dropped; `fsm`, `mismatch` and the store stay. -/
def Obligations.MatchBelowThresholdOnlyCounts : Prop :=
  ∀ (c : Config) (r : Regs c) (tick : Nat), r.run = true → tick < c.period → c.syncThreshold ≤ r.elapsedAt tick →
    r.fsm ≠ .notSynced → r.haveRef = true → r.candLen = r.refCount → r.stability.val + 1 < c.stableCount →
    ∃ stab : Fin (c.stableCount + 1),
      operate (.edge tick) r =
        .ok { r with stability := stab, candLen := 0, prevTick := BitVec.ofNat _ tick } ∧
      stab.val = r.stability.val + 1

/-- `spec/41_frame_fsm.md` rule R131: every transition of `fsm`, in every configuration. -/
def Obligations.FsmTransitionTable : Prop :=
  ∀ (c : Config) (r r' : Regs c) (i : Instr), operate i r = .ok r' →
    r'.fsm =
      match i with
      | .nop => r.fsm
      | .read => r.fsm
      | .start => .notSynced
      | .stop => .notSynced
      | .edge tick =>
        if r.run = false then r.fsm
        else if r.elapsedAt tick < c.channelMinWidth then .notSynced
        else if r.elapsedAt tick < c.syncThreshold then
          if r.fsm = .notSynced then .notSynced else if r.candLen.val < c.maxChannels then r.fsm else .notSynced
        else if r.fsm = .notSynced then .accumulating
        else if r.haveRef = false then r.fsm
        else if r.candLen = r.refCount then
          if min (r.stability.val + 1) c.stableCount = c.stableCount then .synced else r.fsm
        else if r.mismatch.val + 1 ≤ c.retryBound then r.fsm
        else .notSynced

/-- `spec/60_exceptions.md` rule R201: from a state of the block that is not `NotSynced`, an operation ends in
`NotSynced` exactly for the five causes of the table, on their conditions. -/
def Obligations.DesyncExactlyForTheFiveCauses : Prop :=
  ∀ (c : Config) (r r' : Regs c) (i : Instr), r.Inv → r.fsm ≠ .notSynced → operate i r = .ok r' →
    (r'.fsm = .notSynced ↔
      i = .stop ∨ i = .start ∨
      ∃ tick, i = .edge tick ∧
        (r.elapsedAt tick < c.channelMinWidth ∨
          (IsChannelWidth c (r.elapsedAt tick) ∧ r.candLen.val = c.maxChannels) ∨
          (c.syncThreshold ≤ r.elapsedAt tick ∧ r.haveRef = true ∧ r.candLen ≠ r.refCount ∧
            c.retryBound < r.mismatch.val + 1)))

/-- `spec/41_frame_fsm.md` rule R129: a desync writes exactly the seven registers, all to zero, whatever its cause. -/
def Obligations.DesyncWritesSevenRegisters : Prop :=
  ∀ (c : Config) (r : Regs c) (cause : Cause), r.desync cause = desynced r

/-- A desync changes nothing where the block is `NotSynced` already, and `START` and `STOP` are idempotent
(`spec/41_frame_fsm.md` rule R129, corner cases, an inference of the spec from rule R38; `spec/60_exceptions.md` rule R208;
`spec/44_lifecycle.md` rules R181, R182, corner cases). -/
def Obligations.SecondDesyncChangesNothing : Prop :=
  (∀ (c : Config) (r : Regs c) (cause : Cause), r.Inv → r.fsm = .notSynced → r.desync cause = r) ∧
  (∀ s t : State, exec .start s = .next t → exec .start t = .next t) ∧
  (∀ s t : State, exec .stop s = .next t → exec .stop t = .next t)

/-- `spec/60_exceptions.md` rule R204, what the rules R120, R182 bear out of it: `EDGE` then `STOP` and `STOP` then
`EDGE` both end stopped and `NotSynced`; and where the `EDGE` neither stores a pulse nor publishes they differ only in
`prev_tick` (`notes/assumptions/9.md`). -/
def Obligations.EdgeAndStopInEitherOrder : Prop :=
  ∀ (c : Config) (r : Regs c) (tick : Nat), tick < c.period →
    ∃ a b : Regs c,
      runInstrs [.edge tick, .stop] r = .ok a ∧ runInstrs [.stop, .edge tick] r = .ok b ∧
      a.run = false ∧ a.fsm = .notSynced ∧ a.pubSync = .notSynced ∧
      b.run = false ∧ b.fsm = .notSynced ∧ b.pubSync = .notSynced ∧
      (¬ (IsChannelWidth c (r.elapsedAt tick) ∧ r.fsm ≠ .notSynced) → ¬ r.Publishes (.edge tick) →
        { a with prevTick := b.prevTick } = b)

/-! ## The Pulse Classifier -/

/-- `spec/40_pulse_classifier.md` rule R100: the elapsed value by its two cases, below `PERIOD`; equal ticks give 0; and when
`PERIOD` is a power of two it is the subtraction of the two registers with the borrow discarded. -/
def Obligations.ElapsedByItsTwoCases : Prop :=
  ∀ (c : Config) (tick prev : Nat), tick < c.period → prev < c.period →
    elapsed c tick prev = (if prev ≤ tick then tick - prev else tick + c.period - prev) ∧
    elapsed c tick prev < c.period ∧ elapsed c tick tick = 0 ∧
    (c.period = 2 ^ c.tickW → elapsed c tick prev = (tickBits c tick - tickBits c prev).toNat)

/-- `spec/40_pulse_classifier.md` rule R102: between two edges `d` ticks of real time apart, sampled from the free-running
counter, `e = d mod PERIOD`; exactly `d` below `PERIOD`, across any wrap. -/
def Obligations.ElapsedAliasesModuloPeriod : Prop :=
  ∀ (c : Config) (t d : Nat),
    elapsed c (timestampAt c (t + d)) (timestampAt c t) = d % c.period ∧
    (d < c.period → elapsed c (timestampAt c (t + d)) (timestampAt c t) = d)

/-- `spec/40_pulse_classifier.md` rule R103: the class by the two thresholds, in every configuration; the three cases are
exclusive and exhaustive. -/
def Obligations.ClassesByTheThresholds : Prop :=
  ∀ (c : Config) (e : Nat),
    (classify c e = .syncGap ↔ c.syncThreshold ≤ e) ∧
    (classify c e = .channel ↔ c.channelMinWidth ≤ e ∧ e < c.syncThreshold) ∧
    (classify c e = .noise ↔ e < c.channelMinWidth)

/-- `spec/40_pulse_classifier.md` rule R104, an inference of the spec from rule R103: every boundary of the classes. -/
def Obligations.ClassBoundaries : Prop :=
  ∀ c : Config,
    classify c c.syncThreshold = .syncGap ∧ classify c (c.syncThreshold - 1) = .channel ∧
    classify c c.channelMinWidth = .channel ∧ classify c (c.channelMinWidth - 1) = .noise ∧
    classify c 0 = .noise ∧ classify c (c.period - 1) = .syncGap

/-- `spec/30_encoding.md` rule R92 a: after a `GAP d` the block measures an elapsed value of exactly `d`. -/
def Obligations.GapMeasuresItsWidth : Prop :=
  ∀ (c : Config) (r : Regs c) (d : Nat), r.Inv → d < c.period →
    gapTick c r.prevTick.toNat d < c.period ∧ r.elapsedAt (gapTick c r.prevTick.toNat d) = d

/-- `spec/30_encoding.md` rule R92: in every expansion, while `run` = 1 the assembler's `t_last` equals `prev_tick`. -/
def Obligations.ScriptTracksThePreviousEdge : Prop :=
  ∀ (c : Config) (script : Script) (last : Nat) (r r' : Regs c), (r.run = true → r.prevTick.toNat = last) →
    runInstrs ((script.expand c last).1.map ScriptStep.instr) r = .ok r' → r'.run = true →
    r'.prevTick.toNat = (script.expand c last).2

/-! ## The Channel Value Converter -/

/-- `spec/42_converter.md` rule R151: for every legal channel pulse the register holds the exact integer; nothing clamps
or wraps. -/
def Obligations.ConversionIsExact : Prop :=
  ∀ (c : Config) (e : Nat), IsChannelWidth c e →
    (convertBits c e).toInt = ((e : Int) - (c.centerTicks : Int)) * (c.scale : Int)

/-- `spec/42_converter.md` rule R152: one tick more gives `SCALE` more; the values the registers hold are strictly
increasing over the legal channel pulses. -/
def Obligations.ConversionStrictlyIncreasing : Prop :=
  ∀ c : Config, 1 ≤ c.scale ∧
    (∀ e, convert c (e + 1) - convert c e = (c.scale : Int)) ∧
    (∀ e₁ e₂, IsChannelWidth c e₁ → IsChannelWidth c e₂ → e₁ < e₂ →
      (convertBits c e₁).toInt < (convertBits c e₂).toInt)

/-- `spec/42_converter.md` rules R151, R153: the reference points and the extremes of the legal range in `REF`. -/
def Obligations.ConversionReferencePoints : Prop :=
  (convertBits Config.ref 3000).toInt = 0 ∧ (convertBits Config.ref 2000).toInt = -10000 ∧
  (convertBits Config.ref 4000).toInt = 10000 ∧ (convertBits Config.ref 3001).toInt = 10 ∧
  (convertBits Config.ref 1000).toInt = -20000 ∧ (convertBits Config.ref 6599).toInt = 35990

/-! ## Configurations and widths -/

/-- `spec/00_scope.md` rule R17: the check accepts exactly the configurations the six clauses describe, and `build`
refuses every other. -/
def Obligations.WellFormedConfigurations : Prop :=
  ∀ p : Params,
    (p.check = none ↔
      (2 ≤ p.period ∧ p.period ≤ 2 ^ p.tickW) ∧
      (0 < p.channelMinWidth ∧ p.channelMinWidth < p.syncThreshold ∧ p.syncThreshold < p.period) ∧
      (1 ≤ p.maxChannels ∧ p.maxChannels ≤ 255) ∧ 2 ≤ p.stableCount ∧ 1 ≤ p.scale ∧
      (|(p.channelMinWidth : Int) - p.centerTicks| * p.scale < 2 ^ (p.chvalW - 1) ∧
        |(p.syncThreshold : Int) - 1 - p.centerTicks| * p.scale < 2 ^ (p.chvalW - 1))) ∧
    ((∃ c, Config.build p = .ok c ∧ c.toParams = p) ↔ p.check = none)

/-- `spec/00_scope.md` rules R7, R16: `TICK_W` and `STAB_W` are the least widths that hold `PERIOD` values and the values 0
to `STABLE_COUNT`, and `MIS_W` is the least such width that is not 0. -/
def Obligations.DerivedWidthsAreLeast : Prop :=
  ∀ (p : Params) (w : Nat),
    (1 ≤ p.period → (p.period ≤ 2 ^ w ↔ p.tickW ≤ w)) ∧
    (p.stableCount < 2 ^ w ↔ p.stabW ≤ w) ∧
    (1 ≤ w ∧ p.retryBound < 2 ^ w ↔ p.misW ≤ w)

/-- `spec/10_state.md` rule R20: the registers have the widths of the table, every value fits the width of its register,
and the state of the block in `REF` is 433 bits. -/
def Obligations.RegistersFitTheirWidths : Prop :=
  (∀ (c : Config) (r : Regs c),
    (∀ b ∈ r.bits, b.value < 2 ^ b.width) ∧
    r.stateBits = 1 + 2 + c.tickW + c.maxChannels * c.tickW + 8 + 1 + 8 + c.stabW + c.misW + 1 + 8
      + c.maxChannels * c.chvalW) ∧
  (∀ r : Regs Config.ref, r.stateBits = 433)

/-! ## Encoding -/

/-- `spec/30_encoding.md` rules R82 to R86: decode and encode agree on every well-formed operation of every
configuration. -/
def Obligations.DecodeOfEncode : Prop :=
  ∀ (c : Config) (i : Instr), i.wellFormed c = true → decode c (encode c i) = .ok i

/-- What decodes, decodes again from its encoding, and an `EDGE` comes from one word only: of a command word no bit that
means anything is dropped (`spec/30_encoding.md` rules R81, R85). -/
def Obligations.EncodeOfDecode : Prop :=
  ∀ (c : Config) (p : PortStep c) (i : Instr), decode c p = .ok i →
    decode c (encode c i) = .ok i ∧ (∀ tick, i = .edge tick → p = encode c i) ∧ (i = .read ↔ p = .sample)

/-- `spec/30_encoding.md` rules R81, R82, R85: a command word decodes by its top two bits; the `tick` field counts for `EDGE`
alone, where it is the operand as it stands. The branch in which the decoder refuses a tick of `PERIOD` or more rests on
rule R84, on rule R86, which the spec marks as derived, and on the model's reading of the two (DEDUCED,
`notes/assumptions/7.md`). -/
def Obligations.CommandWordDecodesByItsCode : Prop :=
  ∀ (c : Config) (w : BitVec c.cmdW),
    decode c (.command w) =
      if w.toNat / 2 ^ c.tickW = 0 then .ok .nop
      else if w.toNat / 2 ^ c.tickW = 1 then
        if w.toNat % 2 ^ c.tickW < c.period then .ok (.edge (w.toNat % 2 ^ c.tickW))
        else .error (.tickOutOfRange (w.toNat % 2 ^ c.tickW))
      else if w.toNat / 2 ^ c.tickW = 2 then .ok .start
      else .ok .stop

/-- `spec/30_encoding.md` rules R82, R87, R93: the worked encodings of `REF`. -/
def Obligations.WorkedWordsDecode : Prop :=
  decodeTableWord 24 0x00000 = some .nop ∧ decodeTableWord 24 0x11F40 = some (.edge 8000) ∧
  decodeTableWord 24 0x1FFFA = some (.edge 65530) ∧ decodeTableWord 24 0x1000A = some (.edge 10) ∧
  decodeTableWord 24 0x12AF8 = some (.edge 11000) ∧ decodeTableWord 24 0x11940 = some (.edge 6464) ∧
  decodeTableWord 24 0x20000 = some .start ∧ decodeTableWord 24 0x30000 = some .stop ∧
  decodeTableWord 0 0 = some .read

/-! ## The step -/

/-- A step runs the decoded operation: what is presented first on a port is decoded and done, with it taken from what is
pending (`spec/30_encoding.md` rule R86; `spec/20_memory.md` rule R69; the list of pending events is the model's,
`notes/assumptions/1.md`). -/
def Obligations.StepRunsTheDecodedOperation : Prop :=
  ∀ (s : State) (p : PortStep Config.ref) (rest : List (Event Config.ref)) (i : Instr),
    s.pending = .port p :: rest → decode Config.ref p = .ok i → step s = exec i { s with pending := rest }

/-- A word of the opcode table that the decoder reads as an operation, presented as `withFetchWord` presents it, is run by
the very next step, with the surroundings as before (`notes/assumptions/2.md`). -/
def Obligations.TableWordRunsNext : Prop :=
  ∀ (s : State) (nbits w : Nat) (i : Instr), decodeTableWord nbits w = some i → step (s.withFetchWord nbits w) = exec i s

/-- With nothing presented a step changes nothing: the block makes no step on its own (`spec/00_scope.md` rule R19), and
the idle value of the command port is `NOP`. That the model's `step` then answers is its own choice
(`notes/assumptions/2.md`). -/
def Obligations.IdleStepChangesNothing : Prop :=
  ∀ s : State, s.pending = [] → step s = .next s

/-- In `REF` every step from every state gives a next state: every word of the command port is an operation
(`spec/30_encoding.md` rule R84, and rule R90, which the spec marks as derived) and no operation fails
(`spec/60_exceptions.md` rule R200). That a step with nothing pending answers is the model's own choice (DESIGN CHOICE,
`notes/assumptions/2.md`), and that there is no fault is its reading of rule R200 (DEDUCED, `notes/assumptions/10.md`). -/
def Obligations.EveryStepOfRefSucceeds : Prop :=
  ∀ s : State, ∃ t, step s = .next t

/-- The machine behind its port is the block: presented with the encodings of well-formed operations, it takes them in
order (`spec/20_memory.md` rules R69, R70), its registers follow `runInstrs`, and the consumer is given the words of
`readsOf`. That the events not taken stay in `pending` and the words given stand in `reads`, the latest first, is about the
model's own fields (DESIGN CHOICE, `notes/assumptions/1.md`). -/
def Obligations.CoreFollowsItsPort : Prop :=
  ∀ (s : State) (is : List Instr) (rest : List (Event Config.ref)),
    (∀ i ∈ is, i.wellFormed Config.ref = true) →
    s.pending = is.map (fun i => .port (encode Config.ref i)) ++ rest →
    ∃ t : State, Host.Core.run Sys2Proof.core is.length s = .next t ∧
      runInstrs is s.regs = .ok t.regs ∧ t.pending = rest ∧ t.reads = (readsOf is s.regs).reverse ++ s.reads

/-! ## Invariants -/

/-- The invariants of `spec/10_state.md` rules R36 to R39, R41 hold after reset, in every configuration. -/
def Obligations.InvariantsHoldAtReset : Prop :=
  ∀ c : Config, (Regs.reset c).Inv

/-- The invariants of `spec/10_state.md` rules R36 to R39, R41 are kept by every step of the machine, from every state
that has them. -/
def Obligations.StepKeepsTheInvariants : Prop :=
  ∀ s t : State, s.regs.Inv → step s = .next t → t.regs.Inv

/-- The same for every operation and for reset, in every configuration. -/
def Obligations.EveryEventKeepsTheInvariants : Prop :=
  ∀ (c : Config) (e : Event c) (r r' : Regs c), r.Inv → doEvent e r = .ok r' → r'.Inv

/-- `spec/10_state.md` rule R40, first half: `pub_count` changes only in a `PUBLISH` step or a `START` step or reset. -/
def Obligations.PublishedCountChangesOnlyByThree : Prop :=
  ∀ s t : State, step s = .next t → t.regs.pubCount ≠ s.regs.pubCount →
    (∃ rest, s.pending = .reset :: rest) ∨
    ∃ p rest, s.pending = .port p :: rest ∧
      (decode Config.ref p = .ok .start ∨
        ∃ tick, decode Config.ref p = .ok (.edge tick) ∧ s.regs.Publishes (.edge tick))

/-- The debounce as an invariant, from which rule R40 (`spec/10_state.md`, which the spec marks as derived from rules R127
and R28) follows: after reset, and after every operation from any registers that have it, the frames closed last, as many
as the stability counter says, all had the reference count. -/
def Obligations.EveryOperationKeepsTheDebounce : Prop :=
  ∀ c : Config, (Regs.reset c).Debounced [] ∧
    ∀ (r r' : Regs c) (i : Instr) (closed : List Nat), r.Inv → r.Debounced closed → operate i r = .ok r' →
      r'.Debounced ((r.closes i).toList ++ closed)

/-- `spec/10_state.md` rule R40, second half, the debounce: in every run from reset, a `PUBLISH` step happens only when the
last `STABLE_COUNT` closed frames, the current one included, all had the pulse count being published. -/
def Obligations.PublishedOnlyAfterStableCountEqualFrames : Prop :=
  ∀ (c : Config) (is : List Instr) (r : Regs c) (i : Instr),
    runInstrs is (Regs.reset c) = .ok r → r.Publishes i →
    ((r.closes i).toList ++ closedCounts is (Regs.reset c) []).take c.stableCount
      = List.replicate c.stableCount r.candLen.val

/-! ## Producer and consumer -/

/-- `spec/20_memory.md` rules R64, R68: the consumer cannot influence the block: a run with every `READ` taken out of it
leaves the same registers. -/
def Obligations.ReadsDoNotInfluenceTheBlock : Prop :=
  ∀ (c : Config) (is : List Instr) (r : Regs c),
    runInstrs is r = runInstrs (is.filter fun i => !isRead i) r

/-- `spec/20_memory.md` rules R65, R69: a `READ` returns, for all fields together, the values left by the steps before it
in the total order, and none later. -/
def Obligations.ReadSeesTheStepsBeforeIt : Prop :=
  ∀ (c : Config) (before after : List Instr) (r r' : Regs c), runInstrs before r = .ok r' →
    readsOf (before ++ .read :: after) r = readsOf before r ++ r'.rdFrame :: readsOf after r'

/-! ## Signals -/

/-- `spec/41_frame_fsm.md` rule R132, from `NotSynced`: after a leading sync gap and clean frames of `W` pulses, `k` =
`STABLE_COUNT` exactly: fewer frames leave the block not synced, and from the `STABLE_COUNT`-th on the last frame closed
is the one published. -/
def Obligations.CleanSignalSyncsAfterStableCountFrames : Prop :=
  ∀ (c : Config) (r : Regs c) (w lead : Nat) (frames : List Frame), r.Inv → r.run = true → r.fsm = .notSynced →
    IsGapWidth c lead → w ≤ c.maxChannels → (∀ f ∈ frames, f.Clean c w) →
    ∃ r', runInstrs (r.reported (signal lead frames)) r = .ok r' ∧
      (frames.length < c.stableCount → r'.pubSync = .notSynced) ∧
      (c.stableCount ≤ frames.length → ∀ f, frames.getLast? = some f → r'.Shows f.widths)

/-- `spec/41_frame_fsm.md` rule R132, from any state of the block with `run` = 1: `k <= STABLE_COUNT + 2`. -/
def Obligations.CleanSignalSyncsFromAnyState : Prop :=
  ∀ (c : Config) (r : Regs c) (w lead : Nat) (frames : List Frame), r.Inv → r.run = true →
    IsGapWidth c lead → w ≤ c.maxChannels → (∀ f ∈ frames, f.Clean c w) → c.stableCount + 2 ≤ frames.length →
    ∃ r', runInstrs (r.reported (signal lead frames)) r = .ok r' ∧
      ∀ f, frames.getLast? = some f → r'.Shows f.widths

/-- `spec/60_exceptions.md` rule R207, the least recovery: from `NotSynced` no run of any operations reaches
`pub_sync = Synced` with fewer than `1 + STABLE_COUNT` sync gaps measured. -/
def Obligations.RecoveryNeedsItsSyncGaps : Prop :=
  ∀ (c : Config) (is : List Instr) (r r' : Regs c), r.Inv → r.fsm = .notSynced → runInstrs is r = .ok r' →
    r'.pubSync = .synced → 1 + c.stableCount ≤ gapsSeen is r

/-- `spec/70_reset_and_hazards.md` rule R255: from a state whose count is confirmed, at most
`RETRY_BOUND * (STABLE_COUNT - 1)` consecutive frame closes pass without a publish while `sync` stays 1. -/
def Obligations.UnpublishedClosesWhileSyncedAreBounded : Prop :=
  ∀ (c : Config) (is : List Instr) (r : Regs c), r.Inv → r.stability.val = c.stableCount → SilentSynced is r →
    (closedCounts is r []).length ≤ c.retryBound * (c.stableCount - 1)

/-- `spec/70_reset_and_hazards.md` rule R256: a change of channel count is seen late and whole: with the retry bound not
0, the store stays as it was until the `STABLE_COUNT`-th frame of the new count closes, and that close shows the new
count together with the channels of that frame. -/
def Obligations.CountChangeSeenLateAndWhole : Prop :=
  ∀ (c : Config) (r : Regs c) (w : Nat) (frames : List Frame), r.Inv → r.fsm = .synced →
    r.stability.val = c.stableCount → r.candLen = 0 → r.refCount.val ≠ w → 1 ≤ c.retryBound → w ≤ c.maxChannels →
    (∀ f ∈ frames, f.Clean c w) →
    ∃ r', runInstrs (r.reported (frameIntervals frames)) r = .ok r' ∧
      (frames.length < c.stableCount →
        r'.pubSync = .synced ∧ r'.pubCount = r.pubCount ∧ r'.pubCh = r.pubCh) ∧
      (frames.length = c.stableCount → ∀ f, frames.getLast? = some f → r'.Shows f.widths)
end

