-- ==== Sys2Proof/Laws/Config.lean ====
section
/-! SUPPORT. What rule R17 gives of a well-formed configuration, clause by clause, and the law of `ceilLog2`. -/

namespace Sys2Proof

/-- `ceilLog2 n` is the least width that holds `n` values. -/
theorem ceilLog2_le_iff (n w : Nat) : ceilLog2 n ≤ w ↔ n ≤ 2 ^ w := by
  unfold ceilLog2
  split
  · rename_i h
    have := Nat.one_le_two_pow (n := w)
    omega
  · rename_i h
    have hne : n - 1 ≠ 0 := by omega
    rw [Nat.succ_le_iff, Nat.log2_lt hne]
    omega

theorem le_two_pow_ceilLog2 (n : Nat) : n ≤ 2 ^ ceilLog2 n :=
  (ceilLog2_le_iff n _).1 le_rfl

namespace Config

/-- All the clauses of rule R17 that a configuration satisfies. -/
theorem clauses (c : Config) :
    (2 ≤ c.period ∧ c.period ≤ 2 ^ c.tickW) ∧
    (0 < c.channelMinWidth ∧ c.channelMinWidth < c.syncThreshold ∧ c.syncThreshold < c.period) ∧
    (1 ≤ c.maxChannels ∧ c.maxChannels ≤ 255) ∧
    (1 ≤ c.scale ∧
      max (absDiff c.channelMinWidth c.centerTicks) (absDiff (c.syncThreshold - 1) c.centerTicks) * c.scale
        < 2 ^ (c.chvalW - 1)) := by
  have h := c.wf
  unfold Params.check at h
  split at h <;> try contradiction
  split at h <;> try contradiction
  split at h <;> try contradiction
  split at h <;> try contradiction
  split at h <;> try contradiction
  refine ⟨?_, ?_, ?_, ?_⟩ <;> tauto

theorem two_le_period (c : Config) : 2 ≤ c.period := c.clauses.1.1
theorem period_le (c : Config) : c.period ≤ 2 ^ c.tickW := c.clauses.1.2
theorem channelMinWidth_pos (c : Config) : 0 < c.channelMinWidth := c.clauses.2.1.1
theorem channelMinWidth_lt (c : Config) : c.channelMinWidth < c.syncThreshold := c.clauses.2.1.2.1
theorem syncThreshold_lt (c : Config) : c.syncThreshold < c.period := c.clauses.2.1.2.2
theorem one_le_maxChannels (c : Config) : 1 ≤ c.maxChannels := c.clauses.2.2.1.1
theorem maxChannels_le (c : Config) : c.maxChannels ≤ 255 := c.clauses.2.2.1.2
theorem one_le_scale (c : Config) : 1 ≤ c.scale := c.clauses.2.2.2.1

/-! The constants of `REF`. Not `simp` lemmas: they would rewrite inside the types of the registers. -/

theorem ref_period : ref.period = 65536 := rfl
theorem ref_ticksPerUs : ref.ticksPerUs = 2 := rfl
theorem ref_syncThreshold : ref.syncThreshold = 6600 := rfl
theorem ref_channelMinWidth : ref.channelMinWidth = 1000 := rfl
theorem ref_maxChannels : ref.maxChannels = 8 := rfl
theorem ref_centerTicks : ref.centerTicks = 3000 := rfl
theorem ref_scale : ref.scale = 10 := rfl
theorem ref_chvalW : ref.chvalW = 32 := rfl
theorem ref_stableCount : ref.stableCount = 2 := rfl
theorem ref_retryBound : ref.retryBound = 3 := rfl
theorem ref_tickW : ref.tickW = 16 := by decide
theorem ref_cmdW : ref.cmdW = 18 := by decide
theorem ref_frameW : ref.frameW = 265 := by decide

end Config

end Sys2Proof
end

