-- ==== Sys2Proof/Laws/Decode.lean ====
section
/-! SUPPORT. The fields of a command word as numbers (rule R81). -/

namespace Sys2Proof

theorem tickField_toNat (c : Config) (w : BitVec c.cmdW) :
    (tickField c w).toNat = w.toNat % 2 ^ c.tickW := by
  simp [tickField, BitVec.extractLsb'_toNat]

theorem opField_toNat (c : Config) (w : BitVec c.cmdW) :
    (opField c w).toNat = w.toNat / 2 ^ c.tickW := by
  have h := w.isLt
  have hw : (2 : Nat) ^ c.cmdW = 2 ^ c.tickW * 4 := by
    simp [Params.cmdW, Nat.pow_add]
  simp only [opField, BitVec.extractLsb'_toNat, Nat.shiftRight_eq_div_pow]
  apply Nat.mod_eq_of_lt
  apply Nat.div_lt_of_lt_mul
  omega

/-- The fields of an encoded command word are the fields it was made of (rule R81). -/
theorem commandWord_toNat (c : Config) (op : BitVec 2) (tick : Nat) (h : tick < 2 ^ c.tickW) :
    (commandWord c op tick).toNat = op.toNat * 2 ^ c.tickW + tick := by
  have hw : (2 : Nat) ^ c.cmdW = 2 ^ c.tickW * 4 := by
    simp [Params.cmdW, Nat.pow_add]
  have hop := op.isLt
  simp only [commandWord, BitVec.toNat_ofNat]
  apply Nat.mod_eq_of_lt
  rw [hw]
  have : op.toNat * 2 ^ c.tickW ≤ 3 * 2 ^ c.tickW := Nat.mul_le_mul_right _ (by omega)
  omega

/-- A tick that can be decoded is below `PERIOD` (rule R84). -/
theorem decodeEdge_ok {c : Config} {t : Nat} {i : Instr} (h : decodeEdge c t = .ok i) :
    i = .edge t ∧ t < c.period := by
  unfold decodeEdge at h
  split at h
  · exact ⟨(Except.ok.inj h).symm, ‹_›⟩
  · cases h

/-- All that decoding a command word can answer (rule R86). -/
theorem decodeCommand_cases (c : Config) (w : BitVec c.cmdW) :
    decodeCommand c w = .ok .nop ∨ decodeCommand c w = decodeEdge c (tickField c w).toNat ∨
    decodeCommand c w = .ok .start ∨ decodeCommand c w = .ok .stop := by
  unfold decodeCommand
  split <;> [simp; skip]
  split <;> [simp; skip]
  split <;> simp

end Sys2Proof
end

