-- ==== Sys2Proof/Laws/State.lean ====
section
/-! SUPPORT. One lemma per register per update, each true by `rfl`, so that no later proof unfolds a record update. The
rule each update follows is named at its definition. -/

namespace Sys2Proof.Machine

variable {c : Config}

/-! ### `Regs.setPrevTick` (rule R101) -/

@[simp] theorem Regs.setPrevTick_run (r : Regs c) (tick : Nat) :
    (r.setPrevTick tick).run = r.run := rfl
@[simp] theorem Regs.setPrevTick_fsm (r : Regs c) (tick : Nat) :
    (r.setPrevTick tick).fsm = r.fsm := rfl
@[simp] theorem Regs.setPrevTick_prevTick (r : Regs c) (tick : Nat) :
    (r.setPrevTick tick).prevTick = tickBits c tick := rfl
@[simp] theorem Regs.setPrevTick_cand (r : Regs c) (tick : Nat) :
    (r.setPrevTick tick).cand = r.cand := rfl
@[simp] theorem Regs.setPrevTick_candLen (r : Regs c) (tick : Nat) :
    (r.setPrevTick tick).candLen = r.candLen := rfl
@[simp] theorem Regs.setPrevTick_haveRef (r : Regs c) (tick : Nat) :
    (r.setPrevTick tick).haveRef = r.haveRef := rfl
@[simp] theorem Regs.setPrevTick_refCount (r : Regs c) (tick : Nat) :
    (r.setPrevTick tick).refCount = r.refCount := rfl
@[simp] theorem Regs.setPrevTick_stability (r : Regs c) (tick : Nat) :
    (r.setPrevTick tick).stability = r.stability := rfl
@[simp] theorem Regs.setPrevTick_mismatch (r : Regs c) (tick : Nat) :
    (r.setPrevTick tick).mismatch = r.mismatch := rfl
@[simp] theorem Regs.setPrevTick_pubSync (r : Regs c) (tick : Nat) :
    (r.setPrevTick tick).pubSync = r.pubSync := rfl
@[simp] theorem Regs.setPrevTick_pubCount (r : Regs c) (tick : Nat) :
    (r.setPrevTick tick).pubCount = r.pubCount := rfl
@[simp] theorem Regs.setPrevTick_pubCh (r : Regs c) (tick : Nat) :
    (r.setPrevTick tick).pubCh = r.pubCh := rfl

/-! ### `Regs.markNotSynced` (rule R162) -/

@[simp] theorem Regs.markNotSynced_run (r : Regs c) :
    (r.markNotSynced).run = r.run := rfl
@[simp] theorem Regs.markNotSynced_fsm (r : Regs c) :
    (r.markNotSynced).fsm = r.fsm := rfl
@[simp] theorem Regs.markNotSynced_prevTick (r : Regs c) :
    (r.markNotSynced).prevTick = r.prevTick := rfl
@[simp] theorem Regs.markNotSynced_cand (r : Regs c) :
    (r.markNotSynced).cand = r.cand := rfl
@[simp] theorem Regs.markNotSynced_candLen (r : Regs c) :
    (r.markNotSynced).candLen = r.candLen := rfl
@[simp] theorem Regs.markNotSynced_haveRef (r : Regs c) :
    (r.markNotSynced).haveRef = r.haveRef := rfl
@[simp] theorem Regs.markNotSynced_refCount (r : Regs c) :
    (r.markNotSynced).refCount = r.refCount := rfl
@[simp] theorem Regs.markNotSynced_stability (r : Regs c) :
    (r.markNotSynced).stability = r.stability := rfl
@[simp] theorem Regs.markNotSynced_mismatch (r : Regs c) :
    (r.markNotSynced).mismatch = r.mismatch := rfl
@[simp] theorem Regs.markNotSynced_pubSync (r : Regs c) :
    (r.markNotSynced).pubSync = .notSynced := rfl
@[simp] theorem Regs.markNotSynced_pubCount (r : Regs c) :
    (r.markNotSynced).pubCount = r.pubCount := rfl
@[simp] theorem Regs.markNotSynced_pubCh (r : Regs c) :
    (r.markNotSynced).pubCh = r.pubCh := rfl

/-! ### `Regs.desync` (rule R129) -/

@[simp] theorem Regs.desync_run (r : Regs c) (cause : Cause) :
    (r.desync cause).run = r.run := rfl
@[simp] theorem Regs.desync_fsm (r : Regs c) (cause : Cause) :
    (r.desync cause).fsm = .notSynced := rfl
@[simp] theorem Regs.desync_prevTick (r : Regs c) (cause : Cause) :
    (r.desync cause).prevTick = r.prevTick := rfl
@[simp] theorem Regs.desync_cand (r : Regs c) (cause : Cause) :
    (r.desync cause).cand = r.cand := rfl
@[simp] theorem Regs.desync_candLen (r : Regs c) (cause : Cause) :
    (r.desync cause).candLen = 0 := rfl
@[simp] theorem Regs.desync_haveRef (r : Regs c) (cause : Cause) :
    (r.desync cause).haveRef = false := rfl
@[simp] theorem Regs.desync_refCount (r : Regs c) (cause : Cause) :
    (r.desync cause).refCount = 0 := rfl
@[simp] theorem Regs.desync_stability (r : Regs c) (cause : Cause) :
    (r.desync cause).stability = 0 := rfl
@[simp] theorem Regs.desync_mismatch (r : Regs c) (cause : Cause) :
    (r.desync cause).mismatch = 0 := rfl
@[simp] theorem Regs.desync_pubSync (r : Regs c) (cause : Cause) :
    (r.desync cause).pubSync = .notSynced := rfl
@[simp] theorem Regs.desync_pubCount (r : Regs c) (cause : Cause) :
    (r.desync cause).pubCount = r.pubCount := rfl
@[simp] theorem Regs.desync_pubCh (r : Regs c) (cause : Cause) :
    (r.desync cause).pubCh = r.pubCh := rfl

/-! ### `Regs.openFrame` (rule R122) -/

@[simp] theorem Regs.openFrame_run (r : Regs c) :
    (r.openFrame).run = r.run := rfl
@[simp] theorem Regs.openFrame_fsm (r : Regs c) :
    (r.openFrame).fsm = .accumulating := rfl
@[simp] theorem Regs.openFrame_prevTick (r : Regs c) :
    (r.openFrame).prevTick = r.prevTick := rfl
@[simp] theorem Regs.openFrame_cand (r : Regs c) :
    (r.openFrame).cand = r.cand := rfl
@[simp] theorem Regs.openFrame_candLen (r : Regs c) :
    (r.openFrame).candLen = 0 := rfl
@[simp] theorem Regs.openFrame_haveRef (r : Regs c) :
    (r.openFrame).haveRef = r.haveRef := rfl
@[simp] theorem Regs.openFrame_refCount (r : Regs c) :
    (r.openFrame).refCount = r.refCount := rfl
@[simp] theorem Regs.openFrame_stability (r : Regs c) :
    (r.openFrame).stability = r.stability := rfl
@[simp] theorem Regs.openFrame_mismatch (r : Regs c) :
    (r.openFrame).mismatch = r.mismatch := rfl
@[simp] theorem Regs.openFrame_pubSync (r : Regs c) :
    (r.openFrame).pubSync = r.pubSync := rfl
@[simp] theorem Regs.openFrame_pubCount (r : Regs c) :
    (r.openFrame).pubCount = r.pubCount := rfl
@[simp] theorem Regs.openFrame_pubCh (r : Regs c) :
    (r.openFrame).pubCh = r.pubCh := rfl

/-! ### `Regs.append` (rule R124) -/

@[simp] theorem Regs.append_run (r : Regs c) (e : Nat) (h : r.candLen.val < c.maxChannels) :
    (r.append e h).run = r.run := rfl
@[simp] theorem Regs.append_fsm (r : Regs c) (e : Nat) (h : r.candLen.val < c.maxChannels) :
    (r.append e h).fsm = r.fsm := rfl
@[simp] theorem Regs.append_prevTick (r : Regs c) (e : Nat) (h : r.candLen.val < c.maxChannels) :
    (r.append e h).prevTick = r.prevTick := rfl
@[simp] theorem Regs.append_cand (r : Regs c) (e : Nat) (h : r.candLen.val < c.maxChannels) :
    (r.append e h).cand = r.cand.set r.candLen.val (tickBits c e) h := rfl
@[simp] theorem Regs.append_candLen (r : Regs c) (e : Nat) (h : r.candLen.val < c.maxChannels) :
    (r.append e h).candLen = ⟨r.candLen.val + 1, Nat.succ_lt_succ h⟩ := rfl
@[simp] theorem Regs.append_haveRef (r : Regs c) (e : Nat) (h : r.candLen.val < c.maxChannels) :
    (r.append e h).haveRef = r.haveRef := rfl
@[simp] theorem Regs.append_refCount (r : Regs c) (e : Nat) (h : r.candLen.val < c.maxChannels) :
    (r.append e h).refCount = r.refCount := rfl
@[simp] theorem Regs.append_stability (r : Regs c) (e : Nat) (h : r.candLen.val < c.maxChannels) :
    (r.append e h).stability = r.stability := rfl
@[simp] theorem Regs.append_mismatch (r : Regs c) (e : Nat) (h : r.candLen.val < c.maxChannels) :
    (r.append e h).mismatch = r.mismatch := rfl
@[simp] theorem Regs.append_pubSync (r : Regs c) (e : Nat) (h : r.candLen.val < c.maxChannels) :
    (r.append e h).pubSync = r.pubSync := rfl
@[simp] theorem Regs.append_pubCount (r : Regs c) (e : Nat) (h : r.candLen.val < c.maxChannels) :
    (r.append e h).pubCount = r.pubCount := rfl
@[simp] theorem Regs.append_pubCh (r : Regs c) (e : Nat) (h : r.candLen.val < c.maxChannels) :
    (r.append e h).pubCh = r.pubCh := rfl

/-! ### `Regs.closeFirst` (rule R126) -/

@[simp] theorem Regs.closeFirst_run (r : Regs c) :
    (r.closeFirst).run = r.run := rfl
@[simp] theorem Regs.closeFirst_fsm (r : Regs c) :
    (r.closeFirst).fsm = r.fsm := rfl
@[simp] theorem Regs.closeFirst_prevTick (r : Regs c) :
    (r.closeFirst).prevTick = r.prevTick := rfl
@[simp] theorem Regs.closeFirst_cand (r : Regs c) :
    (r.closeFirst).cand = r.cand := rfl
@[simp] theorem Regs.closeFirst_candLen (r : Regs c) :
    (r.closeFirst).candLen = 0 := rfl
@[simp] theorem Regs.closeFirst_haveRef (r : Regs c) :
    (r.closeFirst).haveRef = true := rfl
@[simp] theorem Regs.closeFirst_refCount (r : Regs c) :
    (r.closeFirst).refCount = r.candLen := rfl
@[simp] theorem Regs.closeFirst_stability (r : Regs c) :
    (r.closeFirst).stability = stabilityOne c := rfl
@[simp] theorem Regs.closeFirst_mismatch (r : Regs c) :
    (r.closeFirst).mismatch = 0 := rfl
@[simp] theorem Regs.closeFirst_pubSync (r : Regs c) :
    (r.closeFirst).pubSync = r.pubSync := rfl
@[simp] theorem Regs.closeFirst_pubCount (r : Regs c) :
    (r.closeFirst).pubCount = r.pubCount := rfl
@[simp] theorem Regs.closeFirst_pubCh (r : Regs c) :
    (r.closeFirst).pubCh = r.pubCh := rfl

/-! ### `Regs.publish` (rule R161) -/

@[simp] theorem Regs.publish_run (r : Regs c) (n : Fin (c.maxChannels + 1)) :
    (r.publish n).run = r.run := rfl
@[simp] theorem Regs.publish_fsm (r : Regs c) (n : Fin (c.maxChannels + 1)) :
    (r.publish n).fsm = r.fsm := rfl
@[simp] theorem Regs.publish_prevTick (r : Regs c) (n : Fin (c.maxChannels + 1)) :
    (r.publish n).prevTick = r.prevTick := rfl
@[simp] theorem Regs.publish_cand (r : Regs c) (n : Fin (c.maxChannels + 1)) :
    (r.publish n).cand = r.cand := rfl
@[simp] theorem Regs.publish_candLen (r : Regs c) (n : Fin (c.maxChannels + 1)) :
    (r.publish n).candLen = r.candLen := rfl
@[simp] theorem Regs.publish_haveRef (r : Regs c) (n : Fin (c.maxChannels + 1)) :
    (r.publish n).haveRef = r.haveRef := rfl
@[simp] theorem Regs.publish_refCount (r : Regs c) (n : Fin (c.maxChannels + 1)) :
    (r.publish n).refCount = r.refCount := rfl
@[simp] theorem Regs.publish_stability (r : Regs c) (n : Fin (c.maxChannels + 1)) :
    (r.publish n).stability = r.stability := rfl
@[simp] theorem Regs.publish_mismatch (r : Regs c) (n : Fin (c.maxChannels + 1)) :
    (r.publish n).mismatch = r.mismatch := rfl
@[simp] theorem Regs.publish_pubSync (r : Regs c) (n : Fin (c.maxChannels + 1)) :
    (r.publish n).pubSync = .synced := rfl
@[simp] theorem Regs.publish_pubCount (r : Regs c) (n : Fin (c.maxChannels + 1)) :
    (r.publish n).pubCount = n := rfl
@[simp] theorem Regs.publish_pubCh (r : Regs c) (n : Fin (c.maxChannels + 1)) :
    (r.publish n).pubCh = Vector.ofFn (fun i : Fin c.maxChannels =>
      if i.val < n.val then convertBits c r.cand[i].toNat else r.pubCh[i]) := rfl

/-! ### `Regs.start` (rule R181) -/

@[simp] theorem Regs.start_run (r : Regs c) :
    (r.start).run = true := rfl
@[simp] theorem Regs.start_fsm (r : Regs c) :
    (r.start).fsm = .notSynced := rfl
@[simp] theorem Regs.start_prevTick (r : Regs c) :
    (r.start).prevTick = 0 := rfl
@[simp] theorem Regs.start_cand (r : Regs c) :
    (r.start).cand = r.cand := rfl
@[simp] theorem Regs.start_candLen (r : Regs c) :
    (r.start).candLen = 0 := rfl
@[simp] theorem Regs.start_haveRef (r : Regs c) :
    (r.start).haveRef = false := rfl
@[simp] theorem Regs.start_refCount (r : Regs c) :
    (r.start).refCount = 0 := rfl
@[simp] theorem Regs.start_stability (r : Regs c) :
    (r.start).stability = 0 := rfl
@[simp] theorem Regs.start_mismatch (r : Regs c) :
    (r.start).mismatch = 0 := rfl
@[simp] theorem Regs.start_pubSync (r : Regs c) :
    (r.start).pubSync = .notSynced := rfl
@[simp] theorem Regs.start_pubCount (r : Regs c) :
    (r.start).pubCount = 0 := rfl
@[simp] theorem Regs.start_pubCh (r : Regs c) :
    (r.start).pubCh = r.pubCh := rfl

/-! ### `Regs.stop` (rule R182) -/

@[simp] theorem Regs.stop_run (r : Regs c) :
    (r.stop).run = false := rfl
@[simp] theorem Regs.stop_fsm (r : Regs c) :
    (r.stop).fsm = .notSynced := rfl
@[simp] theorem Regs.stop_prevTick (r : Regs c) :
    (r.stop).prevTick = r.prevTick := rfl
@[simp] theorem Regs.stop_cand (r : Regs c) :
    (r.stop).cand = r.cand := rfl
@[simp] theorem Regs.stop_candLen (r : Regs c) :
    (r.stop).candLen = 0 := rfl
@[simp] theorem Regs.stop_haveRef (r : Regs c) :
    (r.stop).haveRef = false := rfl
@[simp] theorem Regs.stop_refCount (r : Regs c) :
    (r.stop).refCount = 0 := rfl
@[simp] theorem Regs.stop_stability (r : Regs c) :
    (r.stop).stability = 0 := rfl
@[simp] theorem Regs.stop_mismatch (r : Regs c) :
    (r.stop).mismatch = 0 := rfl
@[simp] theorem Regs.stop_pubSync (r : Regs c) :
    (r.stop).pubSync = .notSynced := rfl
@[simp] theorem Regs.stop_pubCount (r : Regs c) :
    (r.stop).pubCount = r.pubCount := rfl
@[simp] theorem Regs.stop_pubCh (r : Regs c) :
    (r.stop).pubCh = r.pubCh := rfl

/-! ### Reset (rule R44) -/

@[simp] theorem Regs.reset_run (c : Config) : (Regs.reset c).run = false := rfl
@[simp] theorem Regs.reset_fsm (c : Config) : (Regs.reset c).fsm = .notSynced := rfl
@[simp] theorem Regs.reset_prevTick (c : Config) : (Regs.reset c).prevTick = 0 := rfl
@[simp] theorem Regs.reset_cand (c : Config) : (Regs.reset c).cand = Vector.replicate c.maxChannels 0 := rfl
@[simp] theorem Regs.reset_candLen (c : Config) : (Regs.reset c).candLen = 0 := rfl
@[simp] theorem Regs.reset_haveRef (c : Config) : (Regs.reset c).haveRef = false := rfl
@[simp] theorem Regs.reset_refCount (c : Config) : (Regs.reset c).refCount = 0 := rfl
@[simp] theorem Regs.reset_stability (c : Config) : (Regs.reset c).stability = 0 := rfl
@[simp] theorem Regs.reset_mismatch (c : Config) : (Regs.reset c).mismatch = 0 := rfl
@[simp] theorem Regs.reset_pubSync (c : Config) : (Regs.reset c).pubSync = .notSynced := rfl
@[simp] theorem Regs.reset_pubCount (c : Config) : (Regs.reset c).pubCount = 0 := rfl
@[simp] theorem Regs.reset_pubCh (c : Config) : (Regs.reset c).pubCh = Vector.replicate c.maxChannels 0 := rfl

@[simp] theorem State.reset_regs : State.reset.regs = Regs.reset Config.ref := rfl
@[simp] theorem State.reset_pending : State.reset.pending = [] := rfl
@[simp] theorem State.reset_reads : State.reset.reads = [] := rfl

/-! ### The surroundings of the block -/

@[simp] theorem doReset_regs (s : State) : (doReset s).regs = Regs.reset Config.ref := rfl
@[simp] theorem doReset_pending (s : State) : (doReset s).pending = s.pending := rfl
@[simp] theorem doReset_reads (s : State) : (doReset s).reads = s.reads := rfl
@[simp] theorem present_regs (s : State) (p : PortStep Config.ref) : (present s p).regs = s.regs := rfl
@[simp] theorem present_pending (s : State) (p : PortStep Config.ref) :
    (present s p).pending = .port p :: s.pending := rfl
@[simp] theorem present_reads (s : State) (p : PortStep Config.ref) : (present s p).reads = s.reads := rfl
@[simp] theorem withFetchWord_eq (s : State) (nbits w : Nat) :
    s.withFetchWord nbits w = present s (portStepOf Config.ref nbits w) := rfl
@[simp] theorem commit_ok (s : State) (r : Regs Config.ref) :
    s.commit (.ok r) = .next { s with regs := r } := rfl
@[simp] theorem commit_error (s : State) (e : Refusal) : s.commit (.error e) = .refused e := rfl
@[simp] theorem stabilityOne_val (c : Config) : (stabilityOne c).val = 1 := rfl
@[simp] theorem stabilityNext_val (s : Fin (c.stableCount + 1)) :
    (stabilityNext s).val = min (s.val + 1) c.stableCount := rfl

end Sys2Proof.Machine
end

