-- ==== Sys2Proof/Laws/Ops.lean ====
section
/-! SUPPORT. What each shared operation can do, said once: cite these instead of unfolding the operation. The main one is
`edge_case`, the inversion of `EDGE` (rule R120) into its eleven branches. -/

namespace Sys2Proof.Machine

variable {c : Config}

/-! ### ELAPSED and CLASSIFY -/

/-- An elapsed value is below `PERIOD` (R100). -/
theorem elapsed_lt (c : Config) (tick prev : Nat) : elapsed c tick prev < c.period := by
  have hP := c.two_le_period
  have h1 := Int.emod_nonneg ((tick : Int) - prev) (b := (c.period : Int)) (by omega)
  have h2 := Int.emod_lt_of_pos ((tick : Int) - prev) (b := (c.period : Int)) (by omega)
  unfold elapsed
  omega

/-- The elapsed value on naturals, once the previous edge's tick is one of the counter (R100). -/
theorem elapsed_eq_mod (c : Config) (tick : Nat) {prev : Nat} (h : prev ≤ c.period) :
    elapsed c tick prev = (tick + c.period - prev) % c.period := by
  have e : ((tick : Int) - prev) % (c.period : Int)
      = (((tick + c.period - prev : Nat) : Int)) % (c.period : Int) := by
    rw [Nat.cast_sub (by omega), Nat.cast_add]
    rw [show ((tick : Int) + c.period - prev) = (tick - prev) + c.period by ring]
    simp
  unfold elapsed
  rw [e, ← Int.natCast_emod, Int.toNat_natCast]

theorem classify_syncGap {e : Nat} : classify c e = .syncGap ↔ c.syncThreshold ≤ e := by
  unfold classify
  split
  · simpa
  · split <;> simp <;> omega

theorem classify_channel {e : Nat} : classify c e = .channel ↔ IsChannelWidth c e := by
  unfold classify
  split
  · simp; omega
  · split <;> simp <;> omega

theorem classify_noise {e : Nat} : classify c e = .noise ↔ e < c.channelMinWidth := by
  have := c.channelMinWidth_lt
  unfold classify
  split
  · simp; omega
  · split <;> simp <;> omega

/-! ### Operands -/

/-- A tick that is one of the counter is held by `prev_tick` as it stands (R83, R101). -/
theorem tickBits_toNat {tick : Nat} (h : tick < c.period) : (tickBits c tick).toNat = tick := by
  have := c.period_le
  simp only [tickBits, BitVec.toNat_ofNat]
  exact Nat.mod_eq_of_lt (by omega)

/-! ### EDGE -/

/-- The room of an open frame does not depend on the previous-edge reference (R101, R124). -/
theorem setPrevTick_room {r : Regs c} {tick : Nat} (room : r.candLen.val < c.maxChannels) :
    (r.setPrevTick tick).candLen.val < c.maxChannels := room

/-- A started block does with an edge what its class says (R120). -/
theorem edge_of_class {r : Regs c} {tick : Nat} {cls : PulseClass} (run : r.run = true)
    (h : r.classAt tick = cls) : r.edge tick = (r.setPrevTick tick).pulse cls (r.elapsedAt tick) := by
  simp [Regs.edge, run, h]

/-- The branches of `EDGE tick` on the registers `r` (R120 to R130), each with its guard and what it leaves. -/
inductive EdgeCase (r : Regs c) (tick : Nat) : Regs c → Prop
  | stopped (run : r.run = false) : EdgeCase r tick r
  | noise (run : r.run = true) (cls : r.classAt tick = .noise) :
      EdgeCase r tick ((r.setPrevTick tick).desync .noise)
  | opened (run : r.run = true) (cls : r.classAt tick = .syncGap) (fsm : r.fsm = .notSynced) :
      EdgeCase r tick (r.setPrevTick tick).openFrame
  | ignored (run : r.run = true) (cls : r.classAt tick = .channel) (fsm : r.fsm = .notSynced) :
      EdgeCase r tick (r.setPrevTick tick)
  | appended (run : r.run = true) (cls : r.classAt tick = .channel) (fsm : r.fsm ≠ .notSynced)
      (room : r.candLen.val < c.maxChannels) :
      EdgeCase r tick ((r.setPrevTick tick).append (r.elapsedAt tick) (setPrevTick_room room))
  | overflow (run : r.run = true) (cls : r.classAt tick = .channel) (fsm : r.fsm ≠ .notSynced)
      (full : r.candLen.val = c.maxChannels) :
      EdgeCase r tick ((r.setPrevTick tick).desync .overflow)
  | first (run : r.run = true) (cls : r.classAt tick = .syncGap) (fsm : r.fsm ≠ .notSynced)
      (ref : r.haveRef = false) :
      EdgeCase r tick (r.setPrevTick tick).closeFirst
  | published (run : r.run = true) (cls : r.classAt tick = .syncGap) (fsm : r.fsm ≠ .notSynced)
      (ref : r.haveRef = true) (count : r.candLen = r.refCount)
      (stable : min (r.stability.val + 1) c.stableCount = c.stableCount) :
      EdgeCase r tick
        { (r.setPrevTick tick).publish r.candLen with
          stability := stabilityNext r.stability, fsm := .synced, mismatch := 0, candLen := 0 }
  | matched (run : r.run = true) (cls : r.classAt tick = .syncGap) (fsm : r.fsm ≠ .notSynced)
      (ref : r.haveRef = true) (count : r.candLen = r.refCount)
      (unstable : r.stability.val + 1 < c.stableCount) :
      EdgeCase r tick
        { r.setPrevTick tick with stability := stabilityNext r.stability, candLen := 0 }
  | tolerated (run : r.run = true) (cls : r.classAt tick = .syncGap) (fsm : r.fsm ≠ .notSynced)
      (ref : r.haveRef = true) (count : r.candLen ≠ r.refCount)
      (bound : r.mismatch.val + 1 ≤ c.retryBound) :
      EdgeCase r tick
        { r.setPrevTick tick with
          refCount := r.candLen, stability := stabilityOne c,
          mismatch := ⟨r.mismatch.val + 1, Nat.lt_succ_of_le bound⟩, candLen := 0 }
  | retry (run : r.run = true) (cls : r.classAt tick = .syncGap) (fsm : r.fsm ≠ .notSynced)
      (ref : r.haveRef = true) (count : r.candLen ≠ r.refCount)
      (bound : c.retryBound < r.mismatch.val + 1) :
      EdgeCase r tick ((r.setPrevTick tick).desync .retry)

/-- The inversion of `CLOSE_FRAME` (R130), as the branches of `EDGE` it is called from. -/
theorem closeFrame_case (r : Regs c) (tick : Nat) (run : r.run = true) (cls : r.classAt tick = .syncGap)
    (fsm : r.fsm ≠ .notSynced) : EdgeCase r tick (r.setPrevTick tick).closeFrame := by
  unfold Regs.closeFrame
  split
  case isTrue ref => exact .first run cls fsm ref
  case isFalse ref =>
    have ref' : r.haveRef = true := by simpa using ref
    split
    case isTrue count =>
      unfold Regs.closeMatch
      split
      case isTrue stable => exact .published run cls fsm ref' count stable
      case isFalse unstable =>
        refine .matched run cls fsm ref' count ?_
        simp at unstable
        omega
    case isFalse count =>
      unfold Regs.closeMismatch
      split
      case isTrue bound => exact .tolerated run cls fsm ref' count bound
      case isFalse bound => exact .retry run cls fsm ref' count (by simpa using bound)

/-- `EDGE tick` takes exactly one of its branches (R120). -/
theorem edge_case (r : Regs c) (tick : Nat) : EdgeCase r tick (r.edge tick) := by
  unfold Regs.edge
  split
  case isFalse run => exact .stopped (by simpa using run)
  case isTrue run =>
    unfold Regs.pulse
    split
    case h_1 cls => exact .noise run cls
    case h_2 cls =>
      split
      case isTrue fsm => exact .opened run cls fsm
      case isFalse fsm => exact closeFrame_case r tick run cls fsm
    case h_3 cls =>
      split
      case isTrue fsm => exact .ignored run cls fsm
      case isFalse fsm =>
        unfold Regs.appendOrOverflow
        split
        case isTrue room => exact .appended run cls fsm room
        case isFalse full =>
          refine .overflow run cls fsm ?_
          have := r.candLen.isLt
          simp at full
          omega

/-- The refusal of rule R84 is the only one: what `EDGE` answers. -/
theorem edgeChecked_eq (r : Regs c) (tick : Nat) :
    r.edgeChecked tick = if tick < c.period then .ok (r.edge tick) else .error (.tickOutOfRange tick) := by
  simp [Regs.edgeChecked, tickLegal]

theorem edgeChecked_of_lt (r : Regs c) {tick : Nat} (h : tick < c.period) :
    r.edgeChecked tick = .ok (r.edge tick) := by
  simp [edgeChecked_eq, h]

/-- All that an operation of any configuration can answer. -/
theorem operate_ok {i : Instr} {r r' : Regs c} (h : operate i r = .ok r') :
    (i = .nop ∧ r' = r) ∨ (∃ tick, i = .edge tick ∧ tick < c.period ∧ r' = r.edge tick) ∨
    (i = .start ∧ r' = r.start) ∨ (i = .stop ∧ r' = r.stop) ∨ (i = .read ∧ r' = r) := by
  cases i with
  | nop => exact .inl ⟨rfl, (Except.ok.inj h).symm⟩
  | edge tick =>
    simp only [operate, edgeChecked_eq] at h
    split at h
    · exact .inr (.inl ⟨tick, rfl, ‹_›, (Except.ok.inj h).symm⟩)
    · cases h
  | start => exact .inr (.inr (.inl ⟨rfl, (Except.ok.inj h).symm⟩))
  | stop => exact .inr (.inr (.inr (.inl ⟨rfl, (Except.ok.inj h).symm⟩)))
  | read => exact .inr (.inr (.inr (.inr ⟨rfl, (Except.ok.inj h).symm⟩)))

/-- A well-formed operation is never refused (R84). -/
theorem operate_of_wellFormed {i : Instr} (h : i.wellFormed c = true) (r : Regs c) : ∃ r', operate i r = .ok r' := by
  cases i with
  | edge tick => exact ⟨_, edgeChecked_of_lt _ (by simpa [Instr.wellFormed] using h)⟩
  | nop => exact ⟨_, rfl⟩
  | start => exact ⟨_, rfl⟩
  | stop => exact ⟨_, rfl⟩
  | read => exact ⟨_, rfl⟩

/-! ### The step -/

/-- The machine of `exec` is the block of `operate` in its surroundings: an operation writes the registers `operate`
gives, and gives the consumer what `result` says. -/
theorem exec_eq_operate (i : Instr) (s : State) :
    exec i s =
      match operate i s.regs with
      | .ok r => .next { s with regs := r, reads := (result i s.regs).toList ++ s.reads }
      | .error e => .refused e := by
  cases i with
  | edge tick =>
    simp only [exec, execEdge, operate, edgeChecked_eq]
    split <;> rfl
  | nop => rfl
  | start => rfl
  | stop => rfl
  | read => rfl

/-- The registers after `exec` are those `operate` gives. -/
theorem exec_regs {i : Instr} {s t : State} (h : exec i s = .next t) : operate i s.regs = .ok t.regs := by
  rw [exec_eq_operate] at h
  rcases result : operate i s.regs with _ | r'
  · simp [result] at h
  · simp only [result] at h
    obtain rfl := Host.Outcome.next.inj h
    rfl

/-- All that a step can do (R69): idle, reset, or the operation presented first. -/
theorem step_next {s t : State} (h : step s = .next t) :
    (s.pending = [] ∧ t = s) ∨
    (∃ rest, s.pending = .reset :: rest ∧ t = doReset { s with pending := rest }) ∨
    (∃ p rest i, s.pending = .port p :: rest ∧ decode Config.ref p = .ok i ∧
      exec i { s with pending := rest } = .next t) := by
  unfold step takeStep at h
  split at h
  · exact .inl ⟨‹_›, (Host.Outcome.next.inj h).symm⟩
  · exact .inr (.inl ⟨_, ‹_›, (Host.Outcome.next.inj h).symm⟩)
  · unfold doPort at h
    split at h
    · exact .inr (.inr ⟨_, _, _, ‹_›, ‹_›, h⟩)
    · cases h

/-! ### Runs -/

theorem runInstrs_append (as bs : List Instr) (r : Regs c) :
    runInstrs (as ++ bs) r =
      match runInstrs as r with
      | .ok r' => runInstrs bs r'
      | .error e => .error e := by
  induction as generalizing r with
  | nil => rfl
  | cons a as ih =>
    simp only [List.cons_append, runInstrs]
    split
    · exact ih _
    · rfl

/-- The counts closed in a run stand before those closed earlier (R40). -/
theorem closedCounts_acc (is : List Instr) (r : Regs c) (acc : List Nat) :
    closedCounts is r acc = closedCounts is r [] ++ acc := by
  induction is generalizing r acc with
  | nil => simp [closedCounts]
  | cons i is ih =>
    simp only [closedCounts]
    split
    · rw [ih, ih _ ((r.closes i).toList ++ [])]
      simp
    · simp

theorem gapEdges_append (c : Config) (last : Nat) (as bs : List Nat) :
    (gapEdges c last (as ++ bs)).1 =
      (gapEdges c last as).1 ++ (gapEdges c (gapEdges c last as).2 bs).1 := by
  induction as generalizing last with
  | nil => rfl
  | cons a as ih => simp [gapEdges, ih]

end Sys2Proof.Machine
end

