-- ==== Sys2Proof/Laws/PerInstr.lean ====
section
/-! SUPPORT. The family `DecodesWellFormed`: an operation that a port step decodes to is well-formed, one lemma per
constructor of `Instr` (rules R84, R86). -/

namespace Sys2Proof.Laws.DecodesWellFormed

/-- Whatever decodes to `i`, in any configuration, `i` is well-formed there. -/
def Statement (i : Instr) : Prop :=
  ∀ (c : Config) (p : PortStep c), decode c p = .ok i → i.wellFormed c = true

theorem nop : Statement .nop := fun _ _ _ => rfl

theorem edge (tick : Nat) : Statement (.edge tick) := by
  intro c p h
  cases p with
  | sample => simp [decode] at h
  | command w =>
    simp only [decode] at h
    rcases decodeCommand_cases c w with e | e | e | e <;> rw [e] at h
    · simp at h
    · obtain ⟨e', lt⟩ := decodeEdge_ok h
      cases e'
      simp [Instr.wellFormed, lt]
    · simp at h
    · simp at h

theorem start : Statement .start := fun _ _ _ => rfl

theorem stop : Statement .stop := fun _ _ _ => rfl

theorem read : Statement .read := fun _ _ _ => rfl

end Sys2Proof.Laws.DecodesWellFormed
end

