-- ==== Sys2Proof/Laws/Store.lean ====
section
/-! SUPPORT. The Published Frame Store's operations, said once: what `PUBLISH` leaves in each entry, the bounds of the packed
channels, and the frame word as the number it holds. -/

namespace Sys2Proof.Machine

variable {c : Config}

/-- Each entry of `pub_ch[]` after `PUBLISH(n)` (R161). -/
theorem publish_pubCh_getElem (r : Regs c) (n : Fin (c.maxChannels + 1)) (i : Fin c.maxChannels) :
    (r.publish n).pubCh[i] = if i.val < n.val then convertBits c r.cand[i].toNat else r.pubCh[i] := by
  simp [Regs.publish]

/-- Packed channels of `w` bits each fit in `w` bits for each (R62). -/
theorem packChannels_lt (w : Nat) (l : List Nat) (h : ∀ x ∈ l, x < 2 ^ w) :
    packChannels w l < 2 ^ (w * l.length) := by
  induction l with
  | nil => simp [packChannels]
  | cons a l ih =>
    have tail := ih fun x hx => h x (by simp [hx])
    have head := h a (by simp)
    have room : 2 ^ w * (packChannels w l + 1) ≤ 2 ^ w * 2 ^ (w * l.length) := Nat.mul_le_mul_left _ tail
    simp only [packChannels, List.length_cons, Nat.mul_add, Nat.pow_add, Nat.mul_one]
    nlinarith

/-- Channel `i` cut back out of the packed channels (R88). -/
theorem packChannels_getElem (w : Nat) (l : List Nat) (h : ∀ x ∈ l, x < 2 ^ w) (i : Nat) (hi : i < l.length) :
    packChannels w l / 2 ^ (w * i) % 2 ^ w = l[i] := by
  induction l generalizing i with
  | nil => simp at hi
  | cons a l ih =>
    have head := h a (by simp)
    have pos : 0 < 2 ^ w := by positivity
    cases i with
    | zero => simp [packChannels, Nat.mod_eq_of_lt head]
    | succ i =>
      have tail := ih (fun x hx => h x (by simp [hx])) i (by simpa using hi)
      rw [show w * (i + 1) = w + w * i by ring, Nat.pow_add, ← Nat.div_div_eq_div_mul]
      simp only [packChannels, List.getElem_cons_succ]
      rw [Nat.add_mul_div_left _ _ pos, Nat.div_eq_of_lt head, Nat.zero_add, tail]

/-- The frame word's number fits in its `FRAME_W` bits (R80, R88). -/
theorem frameNumber_lt (r : Regs c) : r.frameNumber < 2 ^ c.frameW := by
  have packed := packChannels_lt c.chvalW (r.pubCh.toList.map BitVec.toNat) (by simp; intro a _; exact a.isLt)
  rw [show (r.pubCh.toList.map BitVec.toNat).length = c.maxChannels by simp] at packed
  have count := r.pubCount.isLt
  have cap := c.maxChannels_le
  have sync : r.pubSync.code.toNat ≤ 1 := by cases r.pubSync <;> decide
  have room : 2 ^ 9 * (packChannels c.chvalW (r.pubCh.toList.map BitVec.toNat) + 1)
      ≤ 2 ^ 9 * 2 ^ (c.chvalW * c.maxChannels) := Nat.mul_le_mul_left _ packed
  simp only [Regs.frameNumber, Params.frameW, Nat.pow_add]
  omega

/-- The frame word read as a number (R88). -/
theorem rdFrame_toNat (r : Regs c) : r.rdFrame.toNat = r.frameNumber := by
  simp [Regs.rdFrame, Nat.mod_eq_of_lt (frameNumber_lt r)]

end Sys2Proof.Machine
end

