-- ==== Sys2Proof/Tests/Slice0.lean ====
section
/-! SUPPORT. The model's own tests: the smoke test of well-formedness, the decoding of words written out from
`spec/30_encoding.md`, one-step tests whose expected results are the vectors of `spec/95_test_vectors.md`, and for every
statement with hypotheses a concrete state and operands that meet them. -/

namespace Sys2Proof.Tests

open Sys2Proof.Machine Sys2Proof.Statements

/-! ### Small configurations and states -/

/-- `REF` with `PERIOD` 60000, not a power of two (vectors 2.1). -/
def period60000 : Config where
  toParams := { Config.refParams with period := 60000 }
  wf := by decide

/-- `REF` with `STABLE_COUNT` 3, where a match need not publish (R127). -/
def stable3 : Config where
  toParams := { Config.refParams with stableCount := 3 }
  wf := by decide

/-- The registers after reset, but for `run` = 1: what section 2.3 of the vectors starts from. -/
def started : Regs Config.ref := { Regs.reset Config.ref with run := true }

/-- A machine with the given registers, nothing presented and nothing read. -/
def machine (r : Regs Config.ref) : State where
  regs := r
  pending := []
  reads := []

/-- The next state an outcome holds, if it is one. -/
def after (o : Host.Outcome State Fault Refusal) : Option State :=
  match o with
  | .next s => some s
  | .fault _ => none
  | .refused _ => none

theorem next_of_after {o : Host.Outcome State Fault Refusal} {s : State} (h : after o = some s) : o = .next s := by
  cases o <;> simp_all [after]

/-- The registers before vector E5, with `n` pulses accumulated. -/
def accumulating (n : Fin 9) : Regs Config.ref :=
  { started with fsm := .accumulating, candLen := n, cand := Vector.replicate 8 3000, prevTick := 20000 }

/-- The registers before vectors E7, E11, E12, with the counters given. -/
def synced (n ref : Fin 9) (stability : Fin 3) (mismatch : Fin 4) : Regs Config.ref :=
  { started with
    fsm := .synced, candLen := n, cand := Vector.replicate 8 3000, haveRef := true, refCount := ref,
    stability := stability, mismatch := mismatch, pubSync := .synced, pubCount := 8,
    pubCh := Vector.replicate 8 120, prevTick := 20000 }

/-- The registers before vector E9. -/
def beforeE9 : Regs Config.ref :=
  { started with
    fsm := .accumulating, haveRef := true, refCount := 5, stability := 1, candLen := 5,
    cand := #v[2000, 2999, 3000, 3001, 6599, 0, 0, 0], prevTick := 20000 }

/-- The registers of the block `stable3` before a match that does not publish. -/
def unstable : Regs stable3 :=
  { Regs.reset stable3 with run := true, fsm := .accumulating, haveRef := true, stability := 1 }

/-! ### Well-formedness: each check refuses its ill-formed term (R17, R84; vector X-6) -/

theorem test_tick_at_period_ill_formed : (Instr.edge 65536).wellFormed Config.ref = false := by decide

theorem test_tick_below_period_well_formed : (Instr.edge 65535).wellFormed Config.ref = true := by decide

theorem test_period_one_refused :
    ({ Config.refParams with period := 1 } : Params).check = some .periodRange := by decide

theorem test_zero_min_width_refused :
    ({ Config.refParams with channelMinWidth := 0 } : Params).check = some .thresholdOrder := by decide

theorem test_threshold_equal_min_width_refused :
    ({ Config.refParams with syncThreshold := 1000 } : Params).check = some .thresholdOrder := by decide

theorem test_threshold_at_period_refused :
    ({ Config.refParams with syncThreshold := 65536 } : Params).check = some .thresholdOrder := by decide

theorem test_256_channels_refused :
    ({ Config.refParams with maxChannels := 256 } : Params).check = some .channelCap := by decide

theorem test_stable_count_one_refused :
    ({ Config.refParams with stableCount := 1 } : Params).check = some .stableCount := by decide

theorem test_zero_scale_refused :
    ({ Config.refParams with scale := 0 } : Params).check = some .conversionWidth := by decide

theorem test_narrow_channel_value_refused :
    ({ Config.refParams with chvalW := 16 } : Params).check = some .conversionWidth := by decide

theorem test_retry_bound_zero_accepted :
    ({ Config.refParams with retryBound := 0 } : Params).check = none := by decide

/-! ### Decoding: words written out from the encoding table of rule R82 -/

theorem test_decode_nop : decodeTableWord 24 0b00_0000000000000000 = some .nop := by decide

theorem test_decode_nop_ignores_tick : decodeTableWord 24 0b00_1111111111111111 = some .nop := by decide

theorem test_decode_edge : decodeTableWord 24 0b01_0001111101000000 = some (.edge 8000) := by decide

theorem test_decode_edge_greatest : decodeTableWord 24 0b01_1111111111111111 = some (.edge 65535) := by decide

theorem test_decode_start : decodeTableWord 24 0b10_0000000000000000 = some .start := by decide

theorem test_decode_start_ignores_tick : decodeTableWord 24 0x2ABCD = some .start := by decide

theorem test_decode_stop : decodeTableWord 24 0b11_0000000000000000 = some .stop := by decide

theorem test_decode_stop_ignores_tick : decodeTableWord 24 0x3FFFF = some .stop := by decide

theorem test_decode_read : decodeTableWord 0 0 = some .read := by decide

/-- A number of 19 bits is no command word. -/
theorem test_decode_beyond_port : decodeTableWord 24 0x40000 = none := by decide

/-- Vectors 2.1, last row: with `PERIOD` 60000 the word `0x1EA60` can be written but has no meaning. -/
theorem test_decode_tick_out_of_range :
    decodeCommand period60000 (BitVec.ofNat _ 0x1EA60) = .error (.tickOutOfRange 60000) := by decide

/-- Rule R93: the words the encoder writes. -/
theorem test_encode_words :
    [Instr.start, .edge 8000, .edge 65530, .stop, .nop].map (encode Config.ref)
      = [0x20000, 0x11F40, 0x1FFFA, 0x30000, 0x00000].map
          fun w => PortStep.command (BitVec.ofNat Config.ref.cmdW w) := by decide

/-- Rule R91, `notes/assumptions/15.md`: a script with an `EDGE` line out of range assembles to nothing, and one in range to
its words. -/
theorem test_script_edge_range :
    (Script.edge 65536).events Config.ref = none ∧
    (Script.edge 65535).events Config.ref = some [.port (.command 0x1FFFF)] := by decide

/-! ### Classifier and converter: vectors 2.1, 2.2, 2.4 -/

theorem test_elapsed_ref :
    [(0, 0), (11000, 8000), (40000, 40000), (0, 65535), (32767, 32768), (10, 65530), (6464, 64000)].map
        (fun p => elapsed Config.ref p.1 p.2)
      = [0, 3000, 0, 1, 65535, 16, 8000] := by decide

theorem test_elapsed_60000 :
    [(10, 59990), (0, 59999), (59999, 0), (5600, 59000)].map (fun p => elapsed period60000 p.1 p.2)
      = [20, 1, 59999, 6600] := by decide

/-- Every clause of `Obligations.ClassesByTheThresholds` and of `Obligations.ClassBoundaries`, at its boundaries. -/
theorem test_classify :
    [0, 999, 1000, 6599, 6600, 65535].map (classify Config.ref)
      = [.noise, .noise, .channel, .channel, .syncGap, .syncGap] := by decide

theorem test_convert :
    [1000, 2000, 2999, 3000, 3001, 6599].map (convertBits Config.ref)
      = [0xFFFFB1E0, 0xFFFFD8F0, 0xFFFFFFF6, 0x00000000, 0x0000000A, 0x00008C96] := by decide

/-! ### One step each: vectors 2.3, 2.5, 2.6 -/

/-- Vector L1. -/
theorem test_nop : exec .nop (machine beforeE9) = .next (machine beforeE9) := next_of_after (by decide)

/-- Vector E9, with its frame word. -/
theorem test_edge_publishes :
    beforeE9.edge 26600 =
        { beforeE9 with
          stability := 2, fsm := .synced, pubSync := .synced, pubCount := 5, candLen := 0, prevTick := 26600,
          pubCh := #v[-10000, -10, 0, 10, 35990, 0, 0, 0] } ∧
      (beforeE9.edge 26600).rdFrame.toNat = 0x1192C0000001400000001FFFFFFEDFFFFB1E00B := by decide

/-- Vector E12: the retry bound is passed, and no frame is opened. -/
theorem test_edge_retry :
    (synced 8 7 1 3).edge 26600 =
      { started with
        cand := Vector.replicate 8 3000, pubCount := 8, pubCh := Vector.replicate 8 120, prevTick := 26600 } := by
  decide

/-- Vector L3. -/
theorem test_start :
    exec .start (machine (synced 3 8 2 0)) =
      .next (machine { started with cand := Vector.replicate 8 3000, pubCh := Vector.replicate 8 120 }) :=
  next_of_after (by decide)

/-- Vector L2. -/
theorem test_start_after_reset : exec .start State.reset = .next (machine started) :=
  next_of_after (by decide)

/-- The worked example of rule R182. -/
theorem test_stop :
    exec .stop (machine { accumulating 5 with haveRef := true, refCount := 8, stability := 1 }) =
      .next (machine
        { Regs.reset Config.ref with cand := Vector.replicate 8 3000, prevTick := 20000 }) := next_of_after (by decide)

/-- Vectors 2.5: the store after P1, and the eighth channel at -1. -/
theorem test_read_words :
    ({ started with fsm := .synced, pubSync := .synced, pubCount := 8 } : Regs Config.ref).rdFrame.toNat = 0x11 ∧
    ({ started with pubCh := #v[0, 0, 0, 0, 0, 0, 0, -1] } : Regs Config.ref).rdFrame.toNat
      = 0x1FFFFFFFE0000000000000000000000000000000000000000000000000000000000 := by decide

theorem test_read :
    exec .read (machine started) = .next { machine started with reads := [BitVec.ofNat _ 0] } :=
  next_of_after (by decide)

/-- The word `0x20000`, presented first after reset, starts the block. -/
theorem test_step_runs_word : step (State.reset.withFetchWord 24 0x20000) = .next (machine started) :=
  next_of_after (by decide)

/-- Reset in the middle of a frame. -/
theorem test_step_reset :
    step { machine (synced 3 8 2 0) with pending := [.reset] } = .next State.reset := next_of_after (by decide)

/-! ### Witnesses: for every statement with hypotheses, values that meet them together -/

/-- `Obligations.ResetStepFromAnyState`. -/
theorem witness_reset_step :
    ({ machine (synced 3 8 2 0) with pending := [.reset] } : State).pending = .reset :: [] := by decide

/-- `Obligations.EdgeWhileStoppedChangesNothing`; vector E1. -/
theorem witness_stopped :
    (9000 < 65536) ∧ (machine { Regs.reset Config.ref with prevTick := 5 }).regs.run = false := by decide

/-- `Obligations.NoiseDesyncs`; vector E7. -/
theorem witness_noise : Measures (machine (synced 3 8 2 0)) 20999 999 ∧ 999 < 1000 := by
  exact ⟨⟨rfl, by decide, by decide⟩, by decide⟩

/-- `Obligations.SyncGapOpensFrame`; vector E4. -/
theorem witness_opens :
    Measures (machine { started with prevTick := 100 }) 6700 6600 ∧ 6600 ≤ 6600 ∧ started.fsm = .notSynced := by
  exact ⟨⟨rfl, by decide, by decide⟩, by decide⟩

/-- `Obligations.ChannelPulseIgnoredWhileNotSynced`, at both ends of the range. -/
theorem witness_ignored :
    Measures (machine { started with prevTick := 100 }) 1100 1000 ∧
    Measures (machine { started with prevTick := 100 }) 6699 6599 ∧ started.fsm = .notSynced := by
  exact ⟨⟨rfl, by decide, by decide⟩, ⟨rfl, by decide, by decide⟩, by decide⟩

/-- `Obligations.ChannelPulseAppended`; vector E5. -/
theorem witness_appended :
    Measures (machine (accumulating 7)) 21000 1000 ∧ (accumulating 7).fsm ≠ .notSynced ∧
    (accumulating 7).candLen.val < 8 := by
  exact ⟨⟨rfl, by decide, by decide⟩, by decide⟩

/-- `Obligations.OverflowDesyncs`; vector E6. -/
theorem witness_overflow :
    Measures (machine (accumulating 8)) 21000 1000 ∧ (accumulating 8).fsm ≠ .notSynced ∧
    (accumulating 8).candLen.val = 8 := by
  exact ⟨⟨rfl, by decide, by decide⟩, by decide⟩

/-- `Obligations.FirstFrameRecordsItsCount`; vector E8. -/
theorem witness_first :
    Measures (machine (accumulating 5)) 26600 6600 ∧ (accumulating 5).fsm ≠ .notSynced ∧
    (accumulating 5).haveRef = false := by
  exact ⟨⟨rfl, by decide, by decide⟩, by decide⟩

/-- `Obligations.MatchingFramePublished`; vector E9, where some entries are published and some stay. -/
theorem witness_published :
    Measures (machine beforeE9) 26600 6600 ∧ beforeE9.fsm ≠ .notSynced ∧ beforeE9.haveRef = true ∧
    beforeE9.candLen = beforeE9.refCount ∧ 1 ≤ beforeE9.stability.val := by
  exact ⟨⟨rfl, by decide, by decide⟩, by decide⟩

/-- `Obligations.MismatchTolerated`, at the last mismatch that is tolerated. -/
theorem witness_tolerated :
    Measures (machine (synced 8 7 1 2)) 26600 6600 ∧ (synced 8 7 1 2).fsm ≠ .notSynced ∧
    (synced 8 7 1 2).haveRef = true ∧ (synced 8 7 1 2).candLen ≠ (synced 8 7 1 2).refCount ∧
    (synced 8 7 1 2).mismatch.val < 3 := by
  exact ⟨⟨rfl, by decide, by decide⟩, by decide⟩

/-- `Obligations.MismatchBeyondRetryBoundDesyncs`; vector E12. -/
theorem witness_beyond_retry :
    Measures (machine (synced 8 7 1 3)) 26600 6600 ∧ (synced 8 7 1 3).fsm ≠ .notSynced ∧
    (synced 8 7 1 3).haveRef = true ∧ (synced 8 7 1 3).candLen ≠ (synced 8 7 1 3).refCount ∧
    (synced 8 7 1 3).mismatch.val = 3 := by
  exact ⟨⟨rfl, by decide, by decide⟩, by decide⟩

/-- `Obligations.EdgeFrame`: an `EDGE` that ends not synced, and one that appends in an open frame. -/
theorem witness_edge_frame :
    (exec (.edge 20999) (machine (synced 3 8 2 0)) = .next (machine ((synced 3 8 2 0).edge 20999)) ∧
      ((synced 3 8 2 0).edge 20999).pubSync ≠ .synced) ∧
    (exec (.edge 21000) (machine (synced 3 8 2 0)) = .next (machine ((synced 3 8 2 0).edge 21000)) ∧
      (synced 3 8 2 0).classAt 21000 ≠ .syncGap ∧ ((synced 3 8 2 0).edge 21000).fsm ≠ .notSynced) := by
  exact ⟨⟨next_of_after (by decide), by decide⟩, next_of_after (by decide), by decide⟩

/-- `Obligations.TickBeyondPeriodRefused`, at the least tick refused that can still be written. -/
theorem witness_tick_refused : period60000.period ≤ 60000 ∧ 60000 < 2 ^ period60000.tickW := by decide

/-- `Obligations.MatchBelowThresholdOnlyCounts`. -/
theorem witness_match_below_threshold :
    unstable.run = true ∧ 6600 < stable3.period ∧ stable3.syncThreshold ≤ unstable.elapsedAt 6600 ∧
    unstable.fsm ≠ .notSynced ∧ unstable.haveRef = true ∧ unstable.candLen = unstable.refCount ∧
    unstable.stability.val + 1 < stable3.stableCount := by decide

/-- `Obligations.FsmTransitionTable`: an operation that answers, for each constructor and each column of rule R131. -/
theorem witness_fsm_table :
    (operate .nop started = .ok started ∧ operate .read started = .ok started ∧
      operate .start started = .ok started.start ∧ operate .stop started = .ok started.stop) ∧
    [operate (.edge 20999) (synced 3 8 2 0), operate (.edge 21000) (synced 7 8 2 0),
        operate (.edge 26599) (synced 8 8 2 0), operate (.edge 26600) (accumulating 5),
        operate (.edge 26600) (synced 8 8 1 0), operate (.edge 26600) (synced 8 7 1 2),
        operate (.edge 26600) (synced 8 7 1 3), operate (.edge 6600) started].map
        (fun x => x.toOption.map Regs.fsm)
      = [some .notSynced, some .synced, some .notSynced, some .accumulating, some .synced, some .synced,
        some .notSynced, some .accumulating] ∧
    (operate (.edge 6600) unstable).toOption.map Regs.fsm = some .accumulating := by decide

theorem synced_inv (n : Fin 9) : (synced n 8 2 0).Inv := by
  constructor <;> revert n <;> decide

theorem mismatching_inv : (synced 8 7 1 3).Inv := by
  constructor <;> decide

theorem started_inv : started.Inv := by
  constructor <;> decide

theorem unstable_inv : unstable.Inv := by
  constructor <;> decide

/-- `Obligations.DesyncExactlyForTheFiveCauses`, each cause at its boundary, and an `EDGE` that is no cause. -/
theorem witness_desync_causes :
    (synced 8 8 2 0).Inv ∧ (synced 8 8 2 0).fsm ≠ .notSynced ∧
    (operate .stop (synced 8 8 2 0)).toOption.isSome ∧ (operate .start (synced 8 8 2 0)).toOption.isSome ∧
    ((operate (.edge 20999) (synced 8 8 2 0)).toOption.isSome ∧
      (synced 8 8 2 0).elapsedAt 20999 < Config.ref.channelMinWidth) ∧
    ((operate (.edge 21000) (synced 8 8 2 0)).toOption.isSome ∧
      IsChannelWidth Config.ref ((synced 8 8 2 0).elapsedAt 21000) ∧ (synced 8 8 2 0).candLen.val = 8) ∧
    (operate (.edge 26600) (synced 8 8 2 0)).toOption.isSome ∧
    ((synced 8 7 1 3).Inv ∧ Config.ref.syncThreshold ≤ (synced 8 7 1 3).elapsedAt 26600 ∧
      Config.ref.retryBound < (synced 8 7 1 3).mismatch.val + 1) := by
  exact ⟨synced_inv 8, by decide, by decide, by decide, by decide, by decide, by decide, mismatching_inv, by decide⟩

/-- `Obligations.SecondDesyncChangesNothing`. -/
theorem witness_second_desync :
    (started.Inv ∧ started.fsm = .notSynced) ∧
    exec .start (machine started) = .next (machine started.start) ∧
    exec .stop (machine started) = .next (machine started.stop) := by
  exact ⟨⟨started_inv, by decide⟩, next_of_after (by decide), next_of_after (by decide)⟩

/-- `Obligations.EdgeAndStopInEitherOrder`, with an `EDGE` that neither stores a pulse nor publishes. -/
theorem witness_edge_and_stop :
    26600 < Config.ref.period ∧
    ¬ (IsChannelWidth Config.ref ((synced 8 7 1 2).elapsedAt 26600) ∧ (synced 8 7 1 2).fsm ≠ .notSynced) ∧
    ¬ (synced 8 7 1 2).Publishes (.edge 26600) := by
  refine ⟨by decide, by decide, fun h => ?_⟩
  exact absurd h.1 (by decide)

/-- The finding of `notes/assumptions/9.md`: where the `EDGE` stores a pulse, the two orders differ in `cand[]` too. -/
theorem test_edge_and_stop_differ_in_cand :
    (runInstrs [.edge 21000, .stop] (accumulating 0)).toOption.map (fun r => r.cand[0].toNat) = some 1000 ∧
    (runInstrs [.stop, .edge 21000] (accumulating 0)).toOption.map (fun r => r.cand[0].toNat) = some 3000 := by
  decide

/-- `Obligations.ElapsedByItsTwoCases`, in both cases, equal ticks among them, and with `PERIOD` a power of two. -/
theorem witness_elapsed :
    (40000 < Config.ref.period ∧ 40000 ≤ 40000) ∧ (0 < Config.ref.period ∧ 65535 < Config.ref.period ∧ ¬ 65535 ≤ 0) ∧
    Config.ref.period = 2 ^ Config.ref.tickW := by decide

/-- `Obligations.ElapsedAliasesModuloPeriod`, at the longest interval that is measured exactly. -/
theorem witness_aliasing : 65535 < Config.ref.period := by decide

/-- `Obligations.GapMeasuresItsWidth`, at the widest gap. -/
theorem witness_gap : started.Inv ∧ 65535 < Config.ref.period := ⟨started_inv, by decide⟩

/-- `Obligations.ScriptTracksThePreviousEdge`. -/
theorem witness_script :
    (started.run = true → started.prevTick.toNat = 0) ∧
    runInstrs (((Script.gap 8000).expand Config.ref 0).1.map ScriptStep.instr) started = .ok (started.edge 8000) ∧
    (started.edge 8000).run = true := by decide

/-- `Obligations.ConversionIsExact` and `Obligations.ConversionStrictlyIncreasing`, at the ends of the range. -/
theorem witness_channel_widths :
    IsChannelWidth Config.ref 1000 ∧ IsChannelWidth Config.ref 6599 ∧ 1000 < 6599 := by decide

/-- `Obligations.DerivedWidthsAreLeast`. -/
theorem witness_widths : 1 ≤ Config.refParams.period := by decide

/-- `Obligations.DecodeOfEncode`, at the greatest tick. -/
theorem witness_encode : (Instr.edge 65535).wellFormed Config.ref = true := by decide

/-- `Obligations.EncodeOfDecode`, on both ports. -/
theorem witness_decode :
    decode Config.ref (.command 0x1FFFF) = .ok (.edge 65535) ∧ decode Config.ref .sample = .ok .read := by decide

/-- `Obligations.CommandWordDecodesByItsCode`: each of its clauses at a boundary of its range of words. -/
theorem witness_codes :
    [0x0FFFF, 0x10000, 0x1FFFF, 0x20000, 0x30000].map
        (fun w => decode Config.ref (.command (BitVec.ofNat _ w)))
      = [.ok .nop, .ok (.edge 0), .ok (.edge 65535), .ok .start, .ok .stop] ∧
    decode period60000 (.command (BitVec.ofNat _ 0x1EA5F)) = .ok (.edge 59999) := by decide

/-- `Obligations.StepRunsTheDecodedOperation`. -/
theorem witness_step :
    (State.reset.withFetchWord 24 0x11F40).pending = .port (.command 0x11F40) :: [] ∧
    decode Config.ref (.command 0x11F40) = .ok (.edge 8000) := by decide

/-- `Obligations.TableWordRunsNext`. -/
theorem witness_table_word : decodeTableWord 24 0x30000 = some .stop := by decide

/-- `Obligations.IdleStepChangesNothing`. -/
theorem witness_idle : (machine started).pending = [] := by decide

/-- `Obligations.CoreFollowsItsPort`. -/
theorem witness_core :
    (∀ i ∈ [Instr.start, .read], i.wellFormed Config.ref = true) ∧
    ({ State.reset with pending := [.port (encode Config.ref .start), .port (encode Config.ref .read), .reset] }
        : State).pending
      = [Instr.start, .read].map (fun i => .port (encode Config.ref i)) ++ [.reset] := by decide

/-- `Obligations.StepKeepsTheInvariants`. -/
theorem witness_step_inv :
    (State.reset.withFetchWord 24 0x20000).regs.Inv ∧
    step (State.reset.withFetchWord 24 0x20000) = .next (machine started) := by
  exact ⟨by constructor <;> decide, next_of_after (by decide)⟩

/-- `Obligations.EveryEventKeepsTheInvariants`, for a port and for reset. -/
theorem witness_event_inv :
    started.Inv ∧ (doEvent (.port (encode Config.ref (.edge 6600))) started).toOption.isSome ∧
    (doEvent .reset started).toOption.isSome := by
  exact ⟨started_inv, by decide, by decide⟩

/-- `Obligations.PublishedCountChangesOnlyByThree`: a change by a publication, by `START` and by reset. -/
theorem witness_count_changes :
    (step ((machine beforeE9).withFetchWord 24 0x167E8) = .next (machine (beforeE9.edge 26600)) ∧
      (beforeE9.edge 26600).pubCount ≠ beforeE9.pubCount) ∧
    (step ((machine (synced 3 8 2 0)).withFetchWord 24 0x20000) = .next (machine (synced 3 8 2 0).start) ∧
      (synced 3 8 2 0).start.pubCount ≠ (synced 3 8 2 0).pubCount) ∧
    (step { machine (synced 3 8 2 0) with pending := [.reset] } = .next State.reset ∧
      State.reset.regs.pubCount ≠ (synced 3 8 2 0).pubCount) := by
  exact ⟨⟨next_of_after (by decide), by decide⟩, ⟨next_of_after (by decide), by decide⟩,
    next_of_after (by decide), by decide⟩

/-- The registers after a leading gap and one frame of no pulses. -/
def oneEmptyFrame : Regs Config.ref :=
  { started with fsm := .accumulating, haveRef := true, stability := 1, prevTick := 14000 }

/-- `Obligations.EveryOperationKeepsTheDebounce`: a close that reaches the threshold, one that changes the count (vector
E11), and an operation that closes nothing. -/
theorem witness_debounce_step :
    (oneEmptyFrame.Inv ∧ oneEmptyFrame.Debounced [0] ∧ (operate (.edge 21000) oneEmptyFrame).toOption.isSome ∧
      oneEmptyFrame.closes (.edge 21000) = some 0) ∧
    ((synced 7 8 2 0).Inv ∧ (synced 7 8 2 0).Debounced [8, 8, 5] ∧
      (operate (.edge 26600) (synced 7 8 2 0)).toOption.isSome ∧ (synced 7 8 2 0).closes (.edge 26600) = some 7 ∧
      (operate .stop (synced 7 8 2 0)).toOption.isSome ∧ (synced 7 8 2 0).closes .stop = none) := by
  refine ⟨⟨by constructor <;> decide, rfl, ?_⟩, synced_inv 7, rfl, ?_⟩ <;> decide

/-- `Obligations.PublishedOnlyAfterStableCountEqualFrames`: two frames of no pulses (P7). -/
theorem witness_debounce :
    runInstrs [.start, .edge 7000, .edge 14000] (Regs.reset Config.ref) = .ok oneEmptyFrame ∧
    oneEmptyFrame.Publishes (.edge 21000) := by
  exact ⟨by decide, by decide, by decide, by decide⟩

/-- `Obligations.ReadSeesTheStepsBeforeIt`. -/
theorem witness_read_order : runInstrs [.start] (Regs.reset Config.ref) = .ok started := by decide

/-- `Obligations.CleanSignalSyncsAfterStableCountFrames`, with as many frames as the threshold, and with one fewer. -/
theorem witness_clean_signal :
    started.Inv ∧ started.run = true ∧ started.fsm = .notSynced ∧ IsGapWidth Config.ref 6600 ∧
    2 ≤ Config.ref.maxChannels ∧
    (∀ f ∈ [(⟨[1000, 6599], 6600⟩ : Frame), ⟨[3000, 3000], 65535⟩], f.Clean Config.ref 2) ∧
    Config.ref.stableCount ≤ 2 ∧ 1 < Config.ref.stableCount := by
  exact ⟨started_inv, by decide⟩

/-- `Obligations.CleanSignalSyncsFromAnyState`, from a synced block in the middle of a frame. -/
theorem witness_clean_signal_any :
    (synced 3 8 2 0).Inv ∧ (synced 3 8 2 0).run = true ∧ IsGapWidth Config.ref 65535 ∧ 0 ≤ Config.ref.maxChannels ∧
    (∀ f ∈ List.replicate 4 (⟨[], 6600⟩ : Frame), f.Clean Config.ref 0) ∧
    Config.ref.stableCount + 2 ≤ (List.replicate 4 (⟨[], 6600⟩ : Frame)).length := by
  exact ⟨synced_inv 3, by decide⟩

/-- `Obligations.RecoveryNeedsItsSyncGaps`: the least run, of two frames of no pulses. -/
theorem witness_recovery :
    started.Inv ∧ started.fsm = .notSynced ∧
    runInstrs [.edge 7000, .edge 14000, .edge 21000] started = .ok (oneEmptyFrame.edge 21000) ∧
    (oneEmptyFrame.edge 21000).pubSync = .synced := by
  exact ⟨started_inv, by decide⟩

/-- `Obligations.UnpublishedClosesWhileSyncedAreBounded`: a close that publishes nothing (vector E11). -/
theorem witness_silent :
    (synced 7 8 2 0).Inv ∧ (synced 7 8 2 0).stability.val = Config.ref.stableCount ∧
    SilentSynced [.edge 26600] (synced 7 8 2 0) ∧ closedCounts [.edge 26600] (synced 7 8 2 0) [] = [7] := by
  refine ⟨synced_inv 7, by decide, ⟨by decide, fun h => absurd h.1 (by decide), ?_⟩, by decide⟩
  exact (by decide : ((synced 7 8 2 0).edge 26600).pubSync = .synced)

/-- `Obligations.CountChangeSeenLateAndWhole`, from 8 channels to 2, with one frame of the new count and with two. -/
theorem witness_count_change :
    (synced 0 8 2 0).Inv ∧ (synced 0 8 2 0).fsm = .synced ∧
    (synced 0 8 2 0).stability.val = Config.ref.stableCount ∧ (synced 0 8 2 0).candLen = 0 ∧
    (synced 0 8 2 0).refCount.val ≠ 2 ∧ 1 ≤ Config.ref.retryBound ∧ 2 ≤ Config.ref.maxChannels ∧
    (∀ f ∈ [(⟨[4000, 3001], 7000⟩ : Frame), ⟨[4000, 3001], 7000⟩], f.Clean Config.ref 2) ∧
    1 < Config.ref.stableCount ∧ 2 = Config.ref.stableCount := by
  exact ⟨synced_inv 0, by decide⟩

end Sys2Proof.Tests
end

/-! # The family of `spec/00_scope.md`: configurations, widths, and the idle step -/

/-! ## The configuration check and `build` (rule R17) -/

namespace Sys2Proof

/-- The natural-number distance of the model is the absolute difference of rule R17 clause (f). -/
theorem absDiff_eq_abs_sub (a b : Nat) : (absDiff a b : Int) = |(a : Int) - b| := by
  unfold absDiff
  rcases le_total a b with h | h
  · rw [abs_of_nonpos (by omega)]
    omega
  · rw [abs_of_nonneg (by omega)]
    omega

theorem absDiff_mul_lt_two_pow_iff (a b k n : Nat) :
    absDiff a b * k < 2 ^ n ↔ |(a : Int) - b| * k < 2 ^ n := by
  rw [← absDiff_eq_abs_sub]
  norm_cast

namespace Params

/-- How `check` tests one clause before the others. -/
theorem refuseUnless_eq_none_iff (clause : Prop) [Decidable clause] (e : ConfigRefusal)
    (rest : Option ConfigRefusal) :
    (if ¬ clause then some e else rest) = none ↔ clause ∧ rest = none := by
  by_cases h : clause <;> simp [h]

/-- Rule R17, with clause (f) as `check` computes it. -/
theorem check_eq_none_iff (p : Params) :
    p.check = none ↔
      (2 ≤ p.period ∧ p.period ≤ 2 ^ p.tickW) ∧
      (0 < p.channelMinWidth ∧ p.channelMinWidth < p.syncThreshold ∧ p.syncThreshold < p.period) ∧
      (1 ≤ p.maxChannels ∧ p.maxChannels ≤ 255) ∧ 2 ≤ p.stableCount ∧ 1 ≤ p.scale ∧
      max (absDiff p.channelMinWidth p.centerTicks) (absDiff (p.syncThreshold - 1) p.centerTicks) * p.scale
        < 2 ^ (p.chvalW - 1) := by
  simp only [check, refuseUnless_eq_none_iff, and_true]

/-- Clause (f) of rule R17: the conversion of the narrowest and of the widest channel pulse fits. The truncated
`syncThreshold - 1` of the check is the true one, since clause (b) makes the threshold positive. -/
theorem conversionFits_iff (p : Params) (hpos : 1 ≤ p.syncThreshold) :
    max (absDiff p.channelMinWidth p.centerTicks) (absDiff (p.syncThreshold - 1) p.centerTicks) * p.scale
        < 2 ^ (p.chvalW - 1) ↔
      |(p.channelMinWidth : Int) - p.centerTicks| * p.scale < 2 ^ (p.chvalW - 1) ∧
      |(p.syncThreshold : Int) - 1 - p.centerTicks| * p.scale < 2 ^ (p.chvalW - 1) := by
  rw [max_mul_of_nonneg _ _ (Nat.zero_le _), max_lt_iff, absDiff_mul_lt_two_pow_iff,
    absDiff_mul_lt_two_pow_iff, Nat.cast_sub hpos, Nat.cast_one]

end Params

namespace Config

theorem build_of_check_eq_none {p : Params} (h : p.check = none) : build p = .ok ⟨p, h⟩ := by
  unfold build
  split
  next => rfl
  next e he => cases h.symm.trans he

/-- Exactly the constants that pass the check are those of a configuration that `build` gives. -/
theorem exists_build_eq_ok_iff (p : Params) :
    (∃ c, build p = .ok c ∧ c.toParams = p) ↔ p.check = none := by
  constructor
  · rintro ⟨c, -, rfl⟩
    exact c.wf
  · intro h
    exact ⟨⟨p, h⟩, build_of_check_eq_none h, rfl⟩

end Config

/-- Settles O36: the check clause by clause, where the two forms of clause (f) agree because clause (b) holds. -/
theorem wellFormedConfigurations : Obligations.WellFormedConfigurations := by
  intro p
  refine ⟨?_, Config.exists_build_eq_ok_iff p⟩
  rw [Params.check_eq_none_iff]
  refine and_congr_right fun _ => and_congr_right fun ⟨_, hlt, _⟩ => ?_
  rw [Params.conversionFits_iff p (by omega)]

/-! ## The derived widths (rules R7 and R16) -/

namespace Params

theorem tickW_le_iff (p : Params) (w : Nat) : p.tickW ≤ w ↔ p.period ≤ 2 ^ w :=
  ceilLog2_le_iff _ _

theorem stabW_le_iff (p : Params) (w : Nat) : p.stabW ≤ w ↔ p.stableCount < 2 ^ w :=
  ceilLog2_le_iff _ _

theorem misW_le_iff (p : Params) (w : Nat) : p.misW ≤ w ↔ 1 ≤ w ∧ p.retryBound < 2 ^ w :=
  max_le_iff.trans (and_congr_right' (ceilLog2_le_iff _ _))

end Params

/-- Settles O37, by the law of `ceilLog2` at each of the three widths. -/
theorem derivedWidthsAreLeast : Obligations.DerivedWidthsAreLeast := fun p w =>
  ⟨fun _ => (p.tickW_le_iff w).symm, (p.stabW_le_iff w).symm, (p.misW_le_iff w).symm⟩

/-! ## The idle step (rules R19 and R180) -/

namespace Machine

theorem exec_nop_eq_next (s : State) : exec .nop s = .next s := rfl

/-- With nothing presented the command port carries its idle value. -/
theorem step_of_pending_nil {s : State} (h : s.pending = []) : step s = exec .nop s := by
  simp only [step, takeStep, h]

/-- Settles O45: the idle step is a `NOP`, which changes nothing. -/
theorem idleStepChangesNothing : Obligations.IdleStepChangesNothing := by
  intro s h
  rw [step_of_pending_nil h, exec_nop_eq_next]

end Machine

end Sys2Proof

/-! # The family of `spec/10_state.md`: the registers, their invariants, and the debounce -/

namespace Sys2Proof.Machine

variable {c : Config}

/-! ## Reset (rule R44) -/

/-- Settles O1: every register of `Regs.reset` is read off its own lemma, and `START` differs from it only in what the
statement puts back. -/
theorem resetZeroesEveryRegister : Obligations.ResetZeroesEveryRegister := by
  intro c
  refine ⟨rfl, rfl, rfl, fun i => ?_, rfl, rfl, rfl, rfl, rfl, rfl, rfl, fun i => ?_, fun r => rfl⟩
  · simp only [Regs.reset_cand, Fin.getElem_fin, Vector.getElem_replicate]
  · simp only [Regs.reset_pubCh, Fin.getElem_fin, Vector.getElem_replicate]

/-! ## The invariants, operation by operation (rules R36 to R39 and R41)

`EDGE` first moves `prev_tick` (rule R101) and then acts on the registers that this leaves, so each lemma about a branch
speaks of the registers it acts on, and `Regs.Inv.setPrevTick` joins them. -/

section Invariants

variable {r r' : Regs c} {tick : Nat}

/-- Registers that a desync leaves as they are have the invariants: `fsm` is `NotSynced` and nothing is learned. -/
theorem inv_of_desync_eq {cause : Cause} (desynced : r.desync cause = r) (tick_lt : r.prevTick.toNat < c.period) :
    r.Inv := by
  have fsm : r.fsm = .notSynced := by rw [← desynced, Regs.desync_fsm]
  have pubSync : r.pubSync = .notSynced := by rw [← desynced, Regs.desync_pubSync]
  have candLen : r.candLen = 0 := by rw [← desynced, Regs.desync_candLen]
  have haveRef : r.haveRef = false := by rw [← desynced, Regs.desync_haveRef]
  have refCount : r.refCount = 0 := by rw [← desynced, Regs.desync_refCount]
  have stability : r.stability = 0 := by rw [← desynced, Regs.desync_stability]
  have mismatch : r.mismatch = 0 := by rw [← desynced, Regs.desync_mismatch]
  constructor <;> simp [fsm, pubSync, candLen, haveRef, refCount, stability, mismatch, tick_lt]

theorem reset_inv (c : Config) : (Regs.reset c).Inv :=
  inv_of_desync_eq (cause := .start) rfl (by simpa using zero_lt_two.trans_le c.two_le_period)

theorem start_inv (r : Regs c) : r.start.Inv :=
  inv_of_desync_eq (cause := .start) rfl (by simpa using zero_lt_two.trans_le c.two_le_period)

theorem Regs.Inv.stop (inv : r.Inv) : r.stop.Inv :=
  inv_of_desync_eq (cause := .stop) rfl inv.prevTick_lt

theorem Regs.Inv.desync (inv : r.Inv) (cause : Cause) : (r.desync cause).Inv :=
  inv_of_desync_eq (cause := cause) rfl inv.prevTick_lt

theorem Regs.Inv.setPrevTick (inv : r.Inv) (lt : tick < c.period) : (r.setPrevTick tick).Inv :=
  { inv with prevTick_lt := by rwa [Regs.setPrevTick_prevTick, tickBits_toNat lt] }

/-- The stability counter is positive after every matching close, since `STABLE_COUNT` is. -/
theorem one_le_stabilityNext (s : Fin (c.stableCount + 1)) : 1 ≤ (stabilityNext s).val :=
  le_min (Nat.le_add_left 1 _) (one_le_two.trans c.two_le_stableCount)

/-- Opening a frame from `NotSynced` keeps the invariants: nothing is learned yet, so the counter is below
`STABLE_COUNT`. -/
theorem Regs.Inv.openFrame (inv : r.Inv) (run : r.run = true) (fsm : r.fsm = .notSynced) : r.openFrame.Inv := by
  obtain ⟨-, haveRef, -, stability, -⟩ := inv.idle fsm
  have unpublished : r.pubSync ≠ .synced := fun h => by simp [inv.sync_iff.1 h] at fsm
  have below : r.stability.val < c.stableCount := by simpa [stability] using zero_lt_two.trans_le c.two_le_stableCount
  exact { inv with
    sync_iff := by simpa using unpublished
    stopped := by simp [run]
    idle := by simp
    learned := by simp [haveRef]
    accumulating := fun _ => below
    synced := by simp
    cand_range := by simp }

/-- A stored channel pulse keeps the invariants: the width it stores at `cand_len` is a channel width, which fits the
register because it is below `PERIOD`. -/
theorem Regs.Inv.append (inv : r.Inv) (fsm : r.fsm ≠ .notSynced) {e : Nat} (width : IsChannelWidth c e)
    (room : r.candLen.val < c.maxChannels) : (r.append e room).Inv := by
  have stored : (tickBits c e).toNat = e := tickBits_toNat (width.2.trans c.syncThreshold_lt)
  exact { inv with
    idle := fun h => absurd h fsm
    cand_range := fun i hi => by
      rcases Nat.lt_succ_iff_lt_or_eq.1 hi with old | last
      · simpa [Vector.getElem_set, old.ne'] using inv.cand_range i old
      · simpa [Vector.getElem_set, last, stored] using width }

/-- A close that learns a count keeps the invariants: the counter goes to 1, which is below `STABLE_COUNT`. -/
theorem Regs.Inv.closeFirst (inv : r.Inv) (run : r.run = true) (fsm : r.fsm ≠ .notSynced) : r.closeFirst.Inv := by
  have two := c.two_le_stableCount
  exact { inv with
    stopped := by simp [run]
    idle := fun h => absurd h fsm
    unlearned := by simp
    learned := fun _ => ⟨le_rfl, fsm⟩
    tentative := by simp
    accumulating := fun _ => two
    synced := fun _ => rfl
    cand_range := by simp }

/-- A publishing close keeps the invariants: `fsm` and `pub_sync` become `Synced` together. -/
theorem Regs.Inv.publishMatch (inv : r.Inv) (run : r.run = true) (ref : r.haveRef = true) :
    Regs.Inv { r.publish r.candLen with
      stability := stabilityNext r.stability, fsm := .synced, mismatch := 0, candLen := 0 } :=
  { inv with
    sync_iff := by simp
    stopped := by simp [run]
    idle := by simp
    unlearned := by simp [ref]
    learned := fun _ => ⟨one_le_stabilityNext _, by simp⟩
    tentative := by simp
    accumulating := by simp
    synced := fun _ => ref
    cand_range := by simp }

/-- A matching close below the threshold keeps the invariants: the counter stays below `STABLE_COUNT`. -/
theorem Regs.Inv.countMatch (inv : r.Inv) (fsm : r.fsm ≠ .notSynced) (ref : r.haveRef = true)
    (unstable : r.stability.val + 1 < c.stableCount) :
    Regs.Inv { r with stability := stabilityNext r.stability, candLen := 0 } := by
  have below : (stabilityNext r.stability).val < c.stableCount := (min_le_left _ _).trans_lt unstable
  exact { inv with
    idle := fun h => absurd h fsm
    unlearned := by simp [ref]
    learned := fun _ => ⟨one_le_stabilityNext _, fsm⟩
    tentative := fun _ => below
    accumulating := fun _ => below
    cand_range := by simp }

/-- A tolerated mismatch keeps the invariants: the new count is tentative again, with the counter at 1. -/
theorem Regs.Inv.tolerate (inv : r.Inv) (fsm : r.fsm ≠ .notSynced) (ref : r.haveRef = true)
    (mismatch : Fin (c.retryBound + 1)) :
    Regs.Inv { r with
      refCount := r.candLen, stability := stabilityOne c, mismatch := mismatch, candLen := 0 } := by
  have two := c.two_le_stableCount
  exact { inv with
    idle := fun h => absurd h fsm
    unlearned := by simp [ref]
    learned := fun _ => ⟨le_rfl, fsm⟩
    tentative := fun _ => two
    accumulating := fun _ => two
    cand_range := by simp }

/-- Every branch of `EDGE` keeps the invariants. -/
theorem EdgeCase.inv (h : EdgeCase r tick r') (inv : r.Inv) (lt : tick < c.period) : r'.Inv := by
  have moved := inv.setPrevTick lt
  cases h with
  | stopped => exact inv
  | noise => exact moved.desync .noise
  | opened run _ fsm => exact moved.openFrame run fsm
  | ignored => exact moved
  | appended _ cls fsm room => exact moved.append fsm (classify_channel.1 cls) (setPrevTick_room room)
  | overflow => exact moved.desync .overflow
  | first run _ fsm => exact moved.closeFirst run fsm
  | published run _ _ ref => exact moved.publishMatch run ref
  | matched _ _ fsm ref _ unstable => exact moved.countMatch fsm ref unstable
  | tolerated _ _ fsm ref => exact moved.tolerate fsm ref _
  | retry => exact moved.desync .retry

/-- Every operation that answers keeps the invariants. -/
theorem operate_inv {i : Instr} (inv : r.Inv) (h : operate i r = .ok r') : r'.Inv := by
  obtain ⟨-, rfl⟩ | ⟨tick, -, lt, rfl⟩ | ⟨-, rfl⟩ | ⟨-, rfl⟩ | ⟨-, rfl⟩ := operate_ok h
  · exact inv
  · exact (edge_case r tick).inv inv lt
  · exact start_inv r
  · exact inv.stop
  · exact inv

end Invariants

/-- Settles O48. -/
theorem invariantsHoldAtReset : Obligations.InvariantsHoldAtReset := reset_inv

/-- Settles O50: an event is reset, or the operation its port step decodes to. -/
theorem everyEventKeepsTheInvariants : Obligations.EveryEventKeepsTheInvariants := by
  intro c e r r' inv h
  cases e with
  | reset =>
    obtain rfl := Except.ok.inj h
    exact reset_inv c
  | port p =>
    simp only [doEvent] at h
    split at h
    · exact operate_inv inv h
    · cases h

/-- Settles O49: a step is idle, reset, or the operation presented first. -/
theorem stepKeepsTheInvariants : Obligations.StepKeepsTheInvariants := by
  intro s t inv h
  obtain ⟨-, rfl⟩ | ⟨rest, -, rfl⟩ | ⟨p, rest, i, -, -, he⟩ := step_next h
  · exact inv
  · exact reset_inv Config.ref
  · have op := exec_regs he
    exact operate_inv inv op

/-! ## What EDGE leaves unchanged (rule R43) -/

section EdgeFrame

variable {r r' : Regs c} {tick : Nat}

theorem EdgeCase.run_eq (h : EdgeCase r tick r') : r'.run = r.run := by
  cases h <;> rfl

/-- The only entry of `cand[]` an `EDGE` can write is that at `cand_len` (R124). -/
theorem EdgeCase.cand_getElem_of_ne (h : EdgeCase r tick r') (i : Fin c.maxChannels) (ne : i.val ≠ r.candLen.val) :
    r'.cand[i] = r.cand[i] := by
  cases h with
  | appended => simp [ne.symm]
  | _ => rfl

/-- The count an `EDGE` closes a frame with (R130). -/
theorem closes_edge_of_gap (run : r.run = true) (cls : r.classAt tick = .syncGap) (fsm : r.fsm ≠ .notSynced) :
    r.closes (.edge tick) = some r.candLen.val := if_pos ⟨run, cls, fsm⟩

theorem closes_edge_eq_none (h : ¬ (r.run = true ∧ r.classAt tick = .syncGap ∧ r.fsm ≠ .notSynced)) :
    r.closes (.edge tick) = none := if_neg h

/-- The published count and channels change only in a publication, which ends with `pub_sync` at `Synced` and writes
the entries below `cand_len` (R40, R161). -/
theorem EdgeCase.store (h : EdgeCase r tick r') :
    (r'.pubCount = r.pubCount ∧ r'.pubCh = r.pubCh) ∨
    (r.Publishes (.edge tick) ∧ r'.pubSync = .synced ∧
      ∀ i : Fin c.maxChannels, r.candLen.val ≤ i.val → r'.pubCh[i] = r.pubCh[i]) := by
  cases h with
  | published run cls fsm ref count stable =>
    refine .inr ⟨⟨?_, ref, stable⟩, rfl, fun i above => ?_⟩
    · rw [closes_edge_of_gap run cls fsm, count]
    · exact (publish_pubCh_getElem _ _ i).trans (if_neg above.not_gt)
  | _ => exact .inl ⟨rfl, rfl⟩

/-- Only a sync gap publishes. -/
theorem Regs.Publishes.classAt_eq (h : r.Publishes (.edge tick)) : r.classAt tick = .syncGap := by
  obtain ⟨close, -, -⟩ := h
  by_contra noGap
  rw [closes_edge_eq_none (by simp [noGap])] at close
  cases close

/-- A pulse that is no sync gap learns nothing; it forgets what is learned only by a desync. -/
theorem EdgeCase.learned_eq_of_not_gap (h : EdgeCase r tick r') (cls : r.classAt tick ≠ .syncGap)
    (fsm : r'.fsm ≠ .notSynced) :
    r'.haveRef = r.haveRef ∧ r'.refCount = r.refCount ∧ r'.stability = r.stability ∧ r'.mismatch = r.mismatch := by
  cases h with
  | stopped | ignored | appended => exact ⟨rfl, rfl, rfl, rfl⟩
  | noise | overflow => exact absurd rfl fsm
  | opened _ gap | first _ gap | published _ gap | matched _ gap | tolerated _ gap | retry _ gap =>
    exact absurd gap cls

/-- All that `EDGE` on the machine can answer: its registers, in the same surroundings. -/
theorem exec_edge_next {s t : State} (h : exec (.edge tick) s = .next t) :
    t = { s with regs := s.regs.edge tick } := by
  simp only [exec, execEdge, edgeChecked_eq] at h
  split at h
  · exact (Host.Outcome.next.inj h).symm
  · cases h

end EdgeFrame

/-- Settles O19: each clause from the inversion of `EDGE`. -/
theorem edgeFrame : Obligations.EdgeFrame := by
  intro s t tick h
  obtain rfl := exec_edge_next h
  have branch := edge_case s.regs tick
  refine ⟨rfl, rfl, branch.run_eq, branch.cand_getElem_of_ne, fun i above => ?_, fun unsynced => ?_,
    fun cls fsm => ?_⟩
  · rcases branch.store with ⟨-, same⟩ | ⟨-, -, aboveSame⟩
    · exact congrArg (·[i]) same
    · exact aboveSame i above
  · rcases branch.store with same | ⟨-, synced, -⟩
    · exact same
    · exact absurd synced unsynced
  · obtain ⟨haveRef, refCount, stability, mismatch⟩ := branch.learned_eq_of_not_gap cls fsm
    rcases branch.store with ⟨count, channels⟩ | ⟨publishes, -⟩
    · exact ⟨haveRef, refCount, stability, mismatch, count, channels⟩
    · exact absurd publishes.classAt_eq cls

/-! ## The published count (rule R40, first half) -/

/-- Of the operations only `START` and an `EDGE` that publishes change the published count. -/
theorem operate_pubCount_ne {i : Instr} {r r' : Regs c} (h : operate i r = .ok r')
    (changed : r'.pubCount ≠ r.pubCount) :
    i = .start ∨ ∃ tick, i = .edge tick ∧ r.Publishes (.edge tick) := by
  obtain ⟨-, rfl⟩ | ⟨tick, rfl, -, rfl⟩ | ⟨rfl, -⟩ | ⟨-, rfl⟩ | ⟨-, rfl⟩ := operate_ok h
  · exact absurd rfl changed
  · rcases (edge_case r tick).store with ⟨same, -⟩ | ⟨publishes, -⟩
    · exact absurd same changed
    · exact .inr ⟨tick, rfl, publishes⟩
  · exact .inl rfl
  · exact absurd rfl changed
  · exact absurd rfl changed

/-- Settles O51: a step that changes the count is no idle one, so it is reset or an operation. -/
theorem publishedCountChangesOnlyByThree : Obligations.PublishedCountChangesOnlyByThree := by
  intro s t h changed
  obtain ⟨-, rfl⟩ | ⟨rest, pending, -⟩ | ⟨p, rest, i, pending, dec, he⟩ := step_next h
  · exact absurd rfl changed
  · exact .inl ⟨rest, pending⟩
  · refine .inr ⟨p, rest, pending, ?_⟩
    obtain rfl | ⟨tick, rfl, publishes⟩ := operate_pubCount_ne (exec_regs he) changed
    · exact .inl dec
    · exact .inr ⟨tick, dec, publishes⟩

/-! ## The debounce (rules R28 and R40, second half) -/

section Debounce

variable {r r' : Regs c} {tick : Nat} {closed : List Nat}

/-- One more equal count in front of `s` equal counts gives `s + 1` of them, and so any lesser number. -/
theorem take_cons_eq_replicate {l : List Nat} {x s n : Nat} (h : l.take s = List.replicate s x) (le : n ≤ s + 1) :
    (x :: l).take n = List.replicate n x := by
  have all : (x :: l).take (s + 1) = List.replicate (s + 1) x := by
    rw [List.take_succ_cons, h, List.replicate_succ]
  calc (x :: l).take n = ((x :: l).take (s + 1)).take n := by rw [List.take_take, min_eq_left le]
    _ = List.replicate n x := by rw [all, List.take_replicate, min_eq_left le]

/-- A block that counts no frame claims nothing of them. -/
theorem debounced_of_stability_eq_zero (h : r.stability = 0) : r.Debounced closed := by
  simp [Regs.Debounced, h]

/-- The debounce speaks of two registers only. -/
theorem Regs.Debounced.congr (h : r.Debounced closed) (stability : r'.stability = r.stability)
    (refCount : r'.refCount = r.refCount) : r'.Debounced closed := by
  rwa [Regs.Debounced, stability, refCount]

/-- A close with the reference count, put first, allows the counter one step (R127). -/
theorem Regs.Debounced.cons (h : r.Debounced closed) (refCount : r'.refCount = r.refCount)
    (le : r'.stability.val ≤ r.stability.val + 1) : r'.Debounced (r'.refCount.val :: closed) := by
  rw [Regs.Debounced, refCount]
  exact take_cons_eq_replicate h le

/-- A count just learned was that of the frame just closed (R126, R128). -/
theorem debounced_of_stabilityOne (h : r.stability = stabilityOne c) : r.Debounced (r.refCount.val :: closed) := by
  simp [Regs.Debounced, h]

/-- Every branch of `EDGE` keeps the debounce, whatever it closes put first. -/
theorem EdgeCase.debounced (h : EdgeCase r tick r') (deb : r.Debounced closed) :
    r'.Debounced ((r.closes (.edge tick)).toList ++ closed) := by
  cases h with
  | noise | overflow | retry => exact debounced_of_stability_eq_zero rfl
  | stopped run =>
    rw [closes_edge_eq_none (by simp [run])]
    exact deb
  | opened _ _ fsm | ignored _ _ fsm =>
    rw [closes_edge_eq_none (by simp [fsm])]
    exact deb.congr rfl rfl
  | appended _ cls =>
    rw [closes_edge_eq_none (by simp [cls])]
    exact deb.congr rfl rfl
  | first run cls fsm | tolerated run cls fsm =>
    rw [closes_edge_of_gap run cls fsm]
    exact debounced_of_stabilityOne rfl
  | published run cls fsm _ count | matched run cls fsm _ count =>
    rw [closes_edge_of_gap run cls fsm, count]
    exact deb.cons rfl (min_le_left _ _)

/-- Every operation that answers keeps the debounce (R28). -/
theorem operate_debounced {i : Instr} (deb : r.Debounced closed) (h : operate i r = .ok r') :
    r'.Debounced ((r.closes i).toList ++ closed) := by
  obtain ⟨rfl, rfl⟩ | ⟨tick, rfl, -, rfl⟩ | ⟨rfl, rfl⟩ | ⟨rfl, rfl⟩ | ⟨rfl, rfl⟩ := operate_ok h
  · exact deb
  · exact (edge_case r tick).debounced deb
  · exact debounced_of_stability_eq_zero rfl
  · exact debounced_of_stability_eq_zero rfl
  · exact deb

/-- A run that answers is an operation that answers and the run after it. -/
theorem runInstrs_cons_ok {i : Instr} {is : List Instr} (h : runInstrs (i :: is) r = .ok r') :
    ∃ mid, operate i r = .ok mid ∧ runInstrs is mid = .ok r' := by
  rcases step : operate i r with e | mid
  · simp only [runInstrs, step, reduceCtorEq] at h
  · simp only [runInstrs, step] at h
    exact ⟨mid, rfl, h⟩

theorem closedCounts_cons_of_ok {i : Instr} (is : List Instr) (step : operate i r = .ok r') (closed : List Nat) :
    closedCounts (i :: is) r closed = closedCounts is r' ((r.closes i).toList ++ closed) := by
  simp only [closedCounts, step]

/-- Every run keeps the debounce of the counts it closes. -/
theorem runInstrs_debounced (is : List Instr) (deb : r.Debounced closed) (h : runInstrs is r = .ok r') :
    r'.Debounced (closedCounts is r closed) := by
  induction is generalizing r closed with
  | nil =>
    obtain rfl := Except.ok.inj h
    exact deb
  | cons i is ih =>
    obtain ⟨mid, step, tail⟩ := runInstrs_cons_ok h
    rw [closedCounts_cons_of_ok is step]
    exact ih (operate_debounced deb step) tail

/-- An operation closes a frame with the pulses accumulated (R130). -/
theorem candLen_eq_of_closes {i : Instr} {n : Nat} (h : r.closes i = some n) : r.candLen.val = n := by
  cases i with
  | edge tick =>
    simp only [Regs.closes] at h
    split at h
    · exact Option.some.inj h
    · cases h
  | nop | start | stop | read => cases h

/-- A publication puts the `STABLE_COUNT`-th equal count in front. -/
theorem Regs.Debounced.take_of_publishes {i : Instr} (deb : r.Debounced closed) (publishes : r.Publishes i) :
    ((r.closes i).toList ++ closed).take c.stableCount = List.replicate c.stableCount r.candLen.val := by
  obtain ⟨close, -, stable⟩ := publishes
  rw [close, candLen_eq_of_closes close]
  exact take_cons_eq_replicate deb (min_eq_right_iff.1 stable)

end Debounce

/-- Settles O52. The invariants of its premise are not needed: the counter and the reference count are written
together. -/
theorem everyOperationKeepsTheDebounce : Obligations.EveryOperationKeepsTheDebounce := fun _ =>
  ⟨debounced_of_stability_eq_zero rfl, fun _ _ _ _ _ deb h => operate_debounced deb h⟩

/-- Settles O53: the debounce at the end of the run, and one more close. -/
theorem publishedOnlyAfterStableCountEqualFrames : Obligations.PublishedOnlyAfterStableCountEqualFrames := by
  intro c is r i h publishes
  have deb : r.Debounced (closedCounts is (Regs.reset c) []) :=
    runInstrs_debounced is (debounced_of_stability_eq_zero rfl) h
  exact deb.take_of_publishes publishes

/-! ## The widths of the registers (rule R20) -/

theorem flagBit_lt (b : Bool) : flagBit b < 2 ^ 1 := by cases b <;> decide

/-- A count of pulses fits `COUNT_W` bits, since `MAX_CHANNELS` is at most 255 (R16, R17). -/
theorem count_lt_two_pow_countW (n : Fin (c.maxChannels + 1)) : n.val < 2 ^ c.countW := by
  have cap := c.maxChannels_le
  calc n.val < 256 := by omega
    _ = 2 ^ c.countW := rfl

theorem stability_lt_two_pow_stabW (n : Fin (c.stableCount + 1)) : n.val < 2 ^ c.stabW :=
  n.isLt.trans_le ((Params.stabW_le_iff _ _).1 le_rfl)

theorem mismatch_lt_two_pow_misW (n : Fin (c.retryBound + 1)) : n.val < 2 ^ c.misW :=
  n.isLt.trans_le ((Params.misW_le_iff _ _).1 le_rfl).2

/-- Every register holds its value in the bits rule R20 gives it. -/
theorem value_lt_of_mem_bits (r : Regs c) : ∀ b ∈ r.bits, b.value < 2 ^ b.width := by
  simp only [Regs.bits, List.forall_mem_append, List.forall_mem_cons, List.forall_mem_map]
  have nil := List.forall_mem_nil fun b : RegBits => b.value < 2 ^ b.width
  exact ⟨⟨⟨⟨flagBit_lt _, BitVec.isLt _, BitVec.isLt _, nil⟩, fun w _ => w.isLt⟩,
    count_lt_two_pow_countW _, flagBit_lt _, count_lt_two_pow_countW _, stability_lt_two_pow_stabW _,
    mismatch_lt_two_pow_misW _, BitVec.isLt _, count_lt_two_pow_countW _, nil⟩, fun w _ => w.isLt⟩

/-- The bits of the whole state, register by register. -/
theorem stateBits_eq (r : Regs c) :
    r.stateBits = 1 + 2 + c.tickW + c.maxChannels * c.tickW + 8 + 1 + 8 + c.stabW + c.misW + 1 + 8
      + c.maxChannels * c.chvalW := by
  simp only [Regs.stateBits, Regs.bits, Params.countW, List.cons_append, List.nil_append, List.append_assoc,
    List.map_cons, List.map_append, List.map_map, Function.comp_def, List.map_const', Vector.length_toList,
    List.sum_cons, List.sum_append, List.sum_replicate, smul_eq_mul]
  omega

/-- Settles O38: the widths of `REF` are numbers. -/
theorem registersFitTheirWidths : Obligations.RegistersFitTheirWidths :=
  ⟨fun _ r => ⟨value_lt_of_mem_bits r, stateBits_eq r⟩, fun r => (stateBits_eq r).trans (by decide)⟩

end Sys2Proof.Machine

/-! # The family of `spec/20_memory.md`: runs, the words read, and the machine behind its port -/

namespace Sys2Proof

/-! ## The fields of an encoded command word (rule R81) -/

section Fields

variable {c : Config} {tick : Nat}

theorem opField_commandWord (op : BitVec 2) (h : tick < 2 ^ c.tickW) : opField c (commandWord c op tick) = op := by
  apply BitVec.eq_of_toNat_eq
  rw [opField_toNat, commandWord_toNat c op tick h, Nat.mul_comm, Nat.mul_add_div (Nat.two_pow_pos _),
    Nat.div_eq_of_lt h, Nat.add_zero]

theorem tickField_commandWord (op : BitVec 2) (h : tick < 2 ^ c.tickW) :
    (tickField c (commandWord c op tick)).toNat = tick := by
  rw [tickField_toNat, commandWord_toNat c op tick h, Nat.mul_add_mod_self_right, Nat.mod_eq_of_lt h]

/-- Decoding reads back the operation a port step was encoded from. Only `EDGE` has an operand, and its range lets it
fit the `tick` field. -/
theorem decode_encode {i : Instr} (h : i.wellFormed c = true) : decode c (encode c i) = .ok i := by
  cases i with
  | edge tick =>
    have lt : tick < c.period := by simpa [Instr.wellFormed] using h
    have fits : tick < 2 ^ c.tickW := lt.trans_le c.period_le
    simp [decode, encode, decodeCommand, decodeEdge, opField_commandWord _ fits, tickField_commandWord _ fits, lt,
      opNop, opEdge]
  | nop | start | stop =>
    simp [decode, encode, decodeCommand, opField_commandWord _ (Nat.two_pow_pos _), opNop, opEdge, opStart, opStop]
  | read => rfl

end Fields

namespace Machine

variable {c : Config}

/-! ## Runs and the words read in them (rules R64, R65, R68 and R69) -/

section Runs

variable {i : Instr} {as bs : List Instr} {r r' : Regs c}

theorem runInstrs_cons_of_ok (is : List Instr) (h : operate i r = .ok r') :
    runInstrs (i :: is) r = runInstrs is r' := by
  simp only [runInstrs, h]

theorem readsOf_cons_of_ok (is : List Instr) (h : operate i r = .ok r') :
    readsOf (i :: is) r = (result i r).toList ++ readsOf is r' := by
  simp only [readsOf, h]

/-- What follows an operation in a run matters only by what it does from the registers that the operation leaves. -/
theorem runInstrs_cons_congr (i : Instr) (h : ∀ r : Regs c, runInstrs as r = runInstrs bs r) (r : Regs c) :
    runInstrs (i :: as) r = runInstrs (i :: bs) r := by
  simp only [runInstrs, h]

@[simp] theorem runInstrs_read_cons (is : List Instr) (r : Regs c) : runInstrs (.read :: is) r = runInstrs is r := rfl

@[simp] theorem readsOf_read_cons (is : List Instr) (r : Regs c) :
    readsOf (.read :: is) r = r.rdFrame :: readsOf is r := rfl

theorem isRead_eq_true_iff : isRead i = true ↔ i = .read := by
  cases i <;> simp [isRead]

/-- A `READ` writes no register (R163), so a run goes on without it as with it. -/
theorem runInstrs_filter_not_isRead (is : List Instr) (r : Regs c) :
    runInstrs (is.filter fun i => !isRead i) r = runInstrs is r := by
  induction is generalizing r with
  | nil => rfl
  | cons i is ih =>
    by_cases reads : isRead i = true
    · obtain rfl := isRead_eq_true_iff.1 reads
      rw [List.filter_cons_of_neg (by simp [isRead]), runInstrs_read_cons, ih]
    · rw [List.filter_cons_of_pos (by simpa using reads), runInstrs_cons_congr i ih]

/-- The words read in a run that answers stand before those read in the run that goes on from its registers. -/
theorem readsOf_append (bs : List Instr) (h : runInstrs as r = .ok r') :
    readsOf (as ++ bs) r = readsOf as r ++ readsOf bs r' := by
  induction as generalizing r with
  | nil =>
    obtain rfl := Except.ok.inj h
    rfl
  | cons i as ih =>
    obtain ⟨mid, step, tail⟩ := runInstrs_cons_ok h
    rw [List.cons_append, readsOf_cons_of_ok _ step, readsOf_cons_of_ok _ step, ih tail, List.append_assoc]

end Runs

/-- Settles O54: a run that has lost its `READ`s is the run itself, in every configuration. -/
theorem readsDoNotInfluenceTheBlock : Obligations.ReadsDoNotInfluenceTheBlock := fun _ is r =>
  (runInstrs_filter_not_isRead is r).symm

/-- Settles O55: the `READ` is the first operation of the run that goes on from `r'`. -/
theorem readSeesTheStepsBeforeIt : Obligations.ReadSeesTheStepsBeforeIt := by
  intro c before after r r' h
  rw [readsOf_append _ h, readsOf_read_cons]

/-! ## The machine behind its port (rules R69 and R70) -/

section Port

variable {s t : State} {i : Instr} {rest : List (Event Config.ref)}

theorem step_of_pending_port {p : PortStep Config.ref} (pending : s.pending = .port p :: rest)
    (dec : decode Config.ref p = .ok i) : step s = exec i { s with pending := rest } := by
  simp only [step, takeStep, pending, doPort, dec]

/-- The step that takes a well-formed operation from the port: the registers are those `operate` gives, and the word
returned, if there is one, is put before those read earlier. -/
theorem step_of_pending_encode (wf : i.wellFormed Config.ref = true)
    (pending : s.pending = .port (encode Config.ref i) :: rest) :
    ∃ t, step s = .next t ∧ operate i s.regs = .ok t.regs ∧ t.pending = rest ∧
      t.reads = (result i s.regs).toList ++ s.reads := by
  obtain ⟨r, answers⟩ := operate_of_wellFormed wf s.regs
  refine ⟨{ regs := r, pending := rest, reads := (result i s.regs).toList ++ s.reads }, ?_, answers, rfl, rfl⟩
  rw [step_of_pending_port pending (decode_encode wf), exec_eq_operate]
  simp only [answers]

theorem core_run_succ (h : step s = .next t) (k : Nat) :
    Host.Core.run Sys2Proof.core (k + 1) s = Host.Core.run Sys2Proof.core k t := by
  have coreStep : Sys2Proof.core.step s = .next t := h
  simp only [Host.Core.run, coreStep]

/-- An operation returns one word at most, so the order of its words is no matter. -/
theorem reverse_toList_append {α : Type} (o : Option α) (l : List α) :
    (o.toList ++ l).reverse = l.reverse ++ o.toList := by
  cases o <;> simp

end Port

/-- Settles O47, by induction on the operations presented: one step takes the first, and the rest follow from the state
it leaves. -/
theorem coreFollowsItsPort : Obligations.CoreFollowsItsPort := by
  intro s is rest wf pending
  induction is generalizing s with
  | nil => exact ⟨s, rfl, rfl, pending, rfl⟩
  | cons i is ih =>
    obtain ⟨wfHead, wfTail⟩ := List.forall_mem_cons.1 wf
    obtain ⟨mid, stepped, answers, untaken, given⟩ := step_of_pending_encode wfHead pending
    obtain ⟨t, run, regs, left, reads⟩ := ih mid wfTail untaken
    refine ⟨t, ?_, ?_, left, ?_⟩
    · rw [List.length_cons, core_run_succ stepped, run]
    · rw [runInstrs_cons_of_ok is answers, regs]
    · rw [reads, given, readsOf_cons_of_ok is answers, reverse_toList_append, List.append_assoc]

end Machine

end Sys2Proof

/-! # The family of `spec/30_encoding.md`: command words, the frame word, steps from the ports, and scripts -/

namespace Sys2Proof

/-! ## Command words (rules R81 to R87) -/

section CommandWords

variable {c : Config} {i : Instr}

/-- The code of a command word as a number (R81). -/
theorem opField_eq_iff (w : BitVec c.cmdW) (op : BitVec 2) :
    opField c w = op ↔ w.toNat / 2 ^ c.tickW = op.toNat := by
  rw [← opField_toNat, BitVec.toNat_inj]

/-- A command word is made of its two fields (R81). -/
theorem commandWord_opField_tickField (w : BitVec c.cmdW) :
    commandWord c (opField c w) (tickField c w).toNat = w := by
  apply BitVec.eq_of_toNat_eq
  rw [commandWord_toNat c _ _ (tickField c w).isLt, opField_toNat, tickField_toNat, Nat.div_add_mod']

theorem decodeEdge_of_lt {tick : Nat} (h : tick < c.period) : decodeEdge c tick = .ok (.edge tick) :=
  if_pos h

theorem decodeEdge_of_le {tick : Nat} (h : c.period ≤ tick) : decodeEdge c tick = .error (.tickOutOfRange tick) :=
  if_neg h.not_gt

/-- A word with the code of `EDGE` decodes as its tick field does (R82, R86). -/
theorem decodeCommand_of_opEdge {w : BitVec c.cmdW} (h : opField c w = opEdge) :
    decodeCommand c w = decodeEdge c (tickField c w).toNat := by
  have edge_ne_nop : opEdge ≠ opNop := by decide
  rw [decodeCommand, h, if_neg edge_ne_nop, if_pos rfl]

/-- What decodes to an `EDGE` is the command word of that `EDGE`: no other code decodes to one, and no bit of the word
is ignored. -/
theorem eq_commandWord_of_decodeCommand_edge {w : BitVec c.cmdW} {tick : Nat}
    (h : decodeCommand c w = .ok (.edge tick)) : w = commandWord c opEdge tick := by
  by_cases code : opField c w = opEdge
  · rw [decodeCommand_of_opEdge code] at h
    obtain ⟨same, -⟩ := decodeEdge_ok h
    obtain rfl := Instr.edge.inj same
    rw [← code, commandWord_opField_tickField]
  · simp only [decodeCommand, if_neg code] at h
    split_ifs at h <;> simp at h

theorem decodeCommand_ne_read (w : BitVec c.cmdW) : decodeCommand c w ≠ .ok .read := by
  intro h
  rcases decodeCommand_cases c w with e | e | e | e <;> rw [e] at h
  case inr.inl => simpa using decodeEdge_ok h
  all_goals simp at h

/-- Every port step that decodes gives an operation that can be written (R84, R86). -/
theorem wellFormed_of_decode {p : PortStep c} (h : decode c p = .ok i) : i.wellFormed c = true := by
  cases i with
  | nop => exact Laws.DecodesWellFormed.nop c p h
  | edge tick => exact Laws.DecodesWellFormed.edge tick c p h
  | start => exact Laws.DecodesWellFormed.start c p h
  | stop => exact Laws.DecodesWellFormed.stop c p h
  | read => exact Laws.DecodesWellFormed.read c p h

end CommandWords

/-- Settles O39, by the operation: the code read back is the code written, and the tick of a well-formed `EDGE` fits its
field. -/
theorem decodeOfEncode : Obligations.DecodeOfEncode := fun _ _ h => decode_encode h

/-- Settles O40: what decodes is well-formed, so it decodes from its encoding; an `EDGE` determines every bit of its
word; and no command word decodes to `READ`. -/
theorem encodeOfDecode : Obligations.EncodeOfDecode := by
  intro c p i h
  refine ⟨decode_encode (wellFormed_of_decode h), ?_, ?_⟩
  · rintro tick rfl
    cases p with
    | command w => exact congrArg PortStep.command (eq_commandWord_of_decodeCommand_edge h)
    | sample => simp [decode] at h
  · cases p with
    | command w =>
      have ne : i ≠ .read := by
        rintro rfl
        exact decodeCommand_ne_read w h
      simp [ne]
    | sample =>
      obtain rfl : Instr.read = i := Except.ok.inj h
      simp

/-- Settles O41: the decoder's tests with the code and the tick field read as numbers, and `opNop`, `opEdge` and
`opStart` evaluated. -/
theorem commandWordDecodesByItsCode : Obligations.CommandWordDecodesByItsCode := by
  intro c w
  simp only [decode, decodeCommand, decodeEdge, opField_eq_iff, tickField_toNat]
  rfl

/-- Settles O42, word by word. -/
theorem workedWordsDecode : Obligations.WorkedWordsDecode := by
  unfold Obligations.WorkedWordsDecode
  decide

namespace Machine

variable {c : Config}

/-- Settles O20: the block and the decoder make the same comparison with `PERIOD`, neither looking at a register. -/
theorem tickBeyondPeriodRefused : Obligations.TickBeyondPeriodRefused := by
  intro c r tick beyond
  refine ⟨?_, fun fits => ?_⟩
  · exact (edgeChecked_eq r tick).trans (if_neg beyond.not_gt)
  · rw [decode, decodeCommand_of_opEdge (opField_commandWord opEdge fits), tickField_commandWord opEdge fits,
      decodeEdge_of_le beyond]

/-! ## Steps from the ports (rules R69, R86 and R90) -/

/-- Settles O43, by the step's own case of a pending port step. -/
theorem stepRunsTheDecodedOperation : Obligations.StepRunsTheDecodedOperation := fun _ _ _ _ => step_of_pending_port

/-- What the decoder reads from a table word is what the port step placed for that word decodes to. -/
theorem decode_portStepOf_of_decodeTableWord {nbits w : Nat} {i : Instr} (h : decodeTableWord nbits w = some i) :
    decode Config.ref (portStepOf Config.ref nbits w) = .ok i := by
  unfold decodeTableWord at h
  split at h
  · cases h
  · cases dec : decode Config.ref (portStepOf Config.ref nbits w) with
    | error e => simp [dec, Except.toOption] at h
    | ok j => simpa [dec, Except.toOption] using h

/-- Settles O44: the word placed is the first pending event, and taking it off gives back the state. -/
theorem tableWordRunsNext : Obligations.TableWordRunsNext := fun _ _ _ _ h =>
  step_of_pending_port rfl (decode_portStepOf_of_decodeTableWord h)

/-- In `REF` every port step is an operation: `PERIOD` is `2^TICK_W`, so no tick field is out of range (R84, R90). -/
theorem exists_decode_ref_eq_ok (p : PortStep Config.ref) : ∃ i, decode Config.ref p = .ok i := by
  cases p with
  | sample => exact ⟨_, rfl⟩
  | command w =>
    rcases decodeCommand_cases Config.ref w with e | e | e | e
    · exact ⟨_, e⟩
    · have lt : (tickField Config.ref w).toNat < Config.ref.period := (tickField Config.ref w).isLt
      exact ⟨_, e.trans (decodeEdge_of_lt lt)⟩
    · exact ⟨_, e⟩
    · exact ⟨_, e⟩

theorem exists_exec_eq_next {i : Instr} (wf : i.wellFormed Config.ref = true) (s : State) :
    ∃ t, exec i s = .next t := by
  obtain ⟨r, answers⟩ := operate_of_wellFormed wf s.regs
  rw [exec_eq_operate, answers]
  exact ⟨_, rfl⟩

/-- Settles O46, by what is pending: nothing, a reset, or a port step, which in `REF` always decodes. -/
theorem everyStepOfRefSucceeds : Obligations.EveryStepOfRefSucceeds := by
  intro s
  cases pending : s.pending with
  | nil => exact ⟨s, idleStepChangesNothing s pending⟩
  | cons e rest =>
    cases e with
    | reset => exact ⟨doReset { s with pending := rest }, by simp only [step, takeStep, pending]⟩
    | port p =>
      obtain ⟨i, dec⟩ := exists_decode_ref_eq_ok p
      rw [step_of_pending_port pending dec]
      exact exists_exec_eq_next (wellFormed_of_decode dec) _

/-! ## The frame word (rule R88) -/

theorem SyncState.code_toNat (s : SyncState) : s.code.toNat = if s = .synced then 1 else 0 := by
  cases s <;> rfl

/-- The packed channels as the sum of rule R88. -/
theorem packChannels_ofFn (w : Nat) {n : Nat} (f : Fin n → Nat) :
    packChannels w (List.ofFn f) = ∑ i, f i * 2 ^ (w * i.val) := by
  induction n with
  | zero => rfl
  | succ n ih =>
    rw [List.ofFn_succ, packChannels, ih, Fin.sum_univ_succ, Finset.mul_sum]
    congr 1
    · simp
    · refine Finset.sum_congr rfl fun i _ => ?_
      rw [Fin.val_succ, Nat.mul_succ, Nat.pow_add]
      ring

theorem pubCh_map_toNat (r : Regs c) :
    r.pubCh.toList.map BitVec.toNat = List.ofFn fun i : Fin c.maxChannels => r.pubCh[i].toNat := by
  apply List.ext_getElem <;> simp

theorem frameNumber_eq_sum (r : Regs c) :
    r.frameNumber = (if r.pubSync = .synced then 1 else 0) + 2 * r.pubCount.val
      + ∑ i : Fin c.maxChannels, r.pubCh[i].toNat * 2 ^ (9 + c.chvalW * i.val) := by
  rw [Regs.frameNumber, SyncState.code_toNat, pubCh_map_toNat, packChannels_ofFn, Finset.mul_sum]
  congr 1
  refine Finset.sum_congr rfl fun i _ => ?_
  rw [Nat.pow_add]
  ring

/-- The flag and the count together stay below the channels' bits. -/
theorem statusNumber_lt (r : Regs c) : r.pubSync.code.toNat + 2 * r.pubCount.val < 2 ^ 9 := by
  have sync := r.pubSync.code.isLt
  have count : r.pubCount.val < 256 := count_lt_two_pow_countW r.pubCount
  omega

theorem frameNumber_mod (r : Regs c) : r.frameNumber % 2 ^ 9 = r.pubSync.code.toNat + 2 * r.pubCount.val := by
  rw [Regs.frameNumber, Nat.add_mul_mod_self_left, Nat.mod_eq_of_lt (statusNumber_lt r)]

theorem frameNumber_div (r : Regs c) :
    r.frameNumber / 2 ^ 9 = packChannels c.chvalW (r.pubCh.toList.map BitVec.toNat) := by
  rw [Regs.frameNumber, Nat.add_mul_div_left _ _ (Nat.two_pow_pos 9), Nat.div_eq_of_lt (statusNumber_lt r),
    Nat.zero_add]

/-- A field of the frame word, cut out of its number. -/
theorem rdFrame_extractLsb'_toNat (r : Regs c) (start len : Nat) :
    (r.rdFrame.extractLsb' start len).toNat = r.frameNumber / 2 ^ start % 2 ^ len := by
  rw [BitVec.extractLsb'_toNat, rdFrame_toNat, Nat.shiftRight_eq_div_pow]

theorem rdFrame_bit_zero (r : Regs c) : r.rdFrame.getLsbD 0 = true ↔ r.pubSync = .synced := by
  have low := frameNumber_mod r
  rw [SyncState.code_toNat] at low
  rw [BitVec.getLsbD, rdFrame_toNat, Nat.testBit_zero, decide_eq_true_iff]
  split_ifs at low with sync <;> simp only [sync, iff_true, iff_false] <;> omega

theorem rdFrame_count (r : Regs c) : (r.rdFrame.extractLsb' 1 8).toNat = r.pubCount.val := by
  have low := frameNumber_mod r
  have sync := r.pubSync.code.isLt
  rw [rdFrame_extractLsb'_toNat]
  omega

theorem rdFrame_channel (r : Regs c) (i : Fin c.maxChannels) :
    r.rdFrame.extractLsb' (9 + c.chvalW * i.val) c.chvalW = r.pubCh[i] := by
  apply BitVec.eq_of_toNat_eq
  rw [rdFrame_extractLsb'_toNat, Nat.pow_add, ← Nat.div_div_eq_div_mul, frameNumber_div,
    packChannels_getElem _ _ (by simpa using fun a _ => a.isLt) _ (by simp)]
  simp

theorem rdFrame_status (r : Regs c) : r.rdFrame.extractLsb' 0 9 = r.statusWord := by
  apply BitVec.eq_of_toNat_eq
  rw [rdFrame_extractLsb'_toNat, Nat.pow_zero, Nat.div_one, frameNumber_mod, Regs.statusWord, BitVec.toNat_ofNat,
    Nat.mod_eq_of_lt (statusNumber_lt r)]

/-- Settles O8: the number of the frame word, and each field cut out of it. -/
theorem frameWordLayout : Obligations.FrameWordLayout := fun _ r =>
  ⟨(rdFrame_toNat r).trans (frameNumber_eq_sum r), rdFrame_bit_zero r, rdFrame_count r, rdFrame_channel r,
    rdFrame_status r⟩

/-! ## Scripts (rule R92) -/

theorem gapTick_lt (c : Config) (last d : Nat) : gapTick c last d < c.period :=
  Nat.mod_lt _ (Nat.zero_lt_of_lt c.two_le_period)

/-- A `GAP` goes forward round the counter by what `ELAPSED` then measures back (R92 a, R100). -/
theorem elapsed_gapTick {last d : Nat} (last_lt : last < c.period) (d_lt : d < c.period) :
    elapsed c (gapTick c last d) last = d := by
  rw [elapsed_eq_mod c _ last_lt.le, gapTick]
  rcases Nat.lt_or_ge (last + d) c.period with before | wrapped
  · rw [Nat.mod_eq_of_lt before, show last + d + c.period - last = d + c.period by omega, Nat.add_mod_right,
      Nat.mod_eq_of_lt d_lt]
  · have landed : (last + d) % c.period = last + d - c.period := by
      rw [Nat.mod_eq_sub_mod wrapped, Nat.mod_eq_of_lt (by omega)]
    rw [landed, show last + d - c.period + c.period - last = d by omega, Nat.mod_eq_of_lt d_lt]

/-- Settles O31: the invariants put `prev_tick` below `PERIOD`. -/
theorem gapMeasuresItsWidth : Obligations.GapMeasuresItsWidth := fun _ _ _ inv d_lt =>
  ⟨gapTick_lt _ _ _, elapsed_gapTick inv.prevTick_lt d_lt⟩

/-- While the block is started, `prev_tick` holds `last`. -/
def Regs.Tracks (r : Regs c) (last : Nat) : Prop :=
  r.run = true → r.prevTick.toNat = last

/-- A run of `is` that answers takes registers that track `last` to registers that track `last'`. -/
def MovesTrack (c : Config) (is : List Instr) (last last' : Nat) : Prop :=
  ∀ r r' : Regs c, r.Tracks last → runInstrs is r = .ok r' → r'.Tracks last'

theorem MovesTrack.nil (last : Nat) : MovesTrack c [] last last := by
  intro r r' tracks h
  obtain rfl : r = r' := Except.ok.inj h
  exact tracks

theorem MovesTrack.append {as bs : List Instr} {last mid last' : Nat} (first : MovesTrack c as last mid)
    (second : MovesTrack c bs mid last') : MovesTrack c (as ++ bs) last last' := by
  intro r r' tracks h
  rw [runInstrs_append] at h
  split at h
  next m answers => exact second m r' (first r m tracks answers) h
  next => cases h

theorem MovesTrack.single {i : Instr} {last last' : Nat}
    (h : ∀ r r' : Regs c, r.Tracks last → operate i r = .ok r' → r'.Tracks last') : MovesTrack c [i] last last' := by
  intro r r' tracks run
  obtain ⟨m, answers, done⟩ := runInstrs_cons_ok run
  obtain rfl : m = r' := Except.ok.inj done
  exact h r m tracks answers

/-- A started block that takes an edge has that edge as its previous edge, in every branch (R101, R120). -/
theorem EdgeCase.prevTick_eq {r r' : Regs c} {tick : Nat} (h : EdgeCase r tick r') (run : r.run = true) :
    r'.prevTick = tickBits c tick := by
  cases h with
  | stopped stopped => simp [run] at stopped
  | noise | opened | ignored | appended | overflow | first | published | matched | tolerated | retry => rfl

/-- An `EDGE` that is not refused moves the track to its own tick, whatever was tracked before. -/
theorem movesTrack_edge (tick last : Nat) : MovesTrack c [.edge tick] last tick := by
  refine .single fun r r' _ h run => ?_
  simp only [operate, edgeChecked_eq] at h
  split at h
  next lt =>
    obtain rfl := Except.ok.inj h
    have taken := edge_case r tick
    rw [taken.prevTick_eq (taken.run_eq ▸ run), tickBits_toNat lt]
  next => cases h

theorem movesTrack_nop (last : Nat) : MovesTrack c [.nop] last last :=
  .single fun _ _ tracks h => Except.ok.inj h ▸ tracks

theorem movesTrack_read (last : Nat) : MovesTrack c [.read] last last :=
  .single fun _ _ tracks h => Except.ok.inj h ▸ tracks

/-- `START` zeroes `prev_tick` as it zeroes `t_last` (R92, R181). -/
theorem movesTrack_start (last : Nat) : MovesTrack c [.start] last 0 := by
  refine .single fun r r' _ h _ => ?_
  obtain rfl := Except.ok.inj h
  simp

/-- After `STOP` the block is not started, so any value is tracked (R182). -/
theorem movesTrack_stop (last : Nat) : MovesTrack c [.stop] last last := by
  refine .single fun r r' _ h run => ?_
  obtain rfl := Except.ok.inj h
  simp at run

theorem movesTrack_gapEdges (last : Nat) (ds : List Nat) :
    MovesTrack c (gapEdges c last ds).1 last (gapEdges c last ds).2 := by
  induction ds generalizing last with
  | nil => exact .nil last
  | cons d ds ih => exact (movesTrack_edge (gapTick c last d) last).append (ih _)

theorem movesTrack_iterateExpansion {f : Nat → List ScriptStep × Nat}
    (body : ∀ last, MovesTrack c ((f last).1.map ScriptStep.instr) last (f last).2) (k last : Nat) :
    MovesTrack c ((iterateExpansion f k last).1.map ScriptStep.instr) last (iterateExpansion f k last).2 := by
  induction k generalizing last with
  | zero => exact .nil last
  | succ k ih =>
    rw [iterateExpansion, List.map_append]
    exact (body last).append (ih _)

/-- The operations of steps that state no result. -/
theorem map_instr_map_noExpect (is : List Instr) :
    (is.map fun i => (⟨i, none⟩ : ScriptStep)).map ScriptStep.instr = is := by
  simp [Function.comp_def]

/-- The assembler's `t_last` follows the previous-edge reference through every script (R92). -/
theorem movesTrack_expand (script : Script) (last : Nat) :
    MovesTrack c ((script.expand c last).1.map ScriptStep.instr) last (script.expand c last).2 := by
  induction script generalizing last with
  | nop => exact movesTrack_nop last
  | edge t => exact movesTrack_edge t last
  | start => exact movesTrack_start last
  | stop => exact movesTrack_stop last
  | read e => exact movesTrack_read last
  | gap d =>
    rw [Script.expand, map_instr_map_noExpect]
    exact movesTrack_gapEdges last [d]
  | frame widths g =>
    rw [Script.expand, map_instr_map_noExpect]
    exact movesTrack_gapEdges last (widths ++ [g])
  | rep k body ih => exact movesTrack_iterateExpansion ih k last
  | seq a b iha ihb =>
    rw [Script.expand, List.map_append]
    exact (iha last).append (ihb _)

/-- Settles O32, by induction over the script. -/
theorem scriptTracksThePreviousEdge : Obligations.ScriptTracksThePreviousEdge :=
  fun _ script last r r' => movesTrack_expand script last r r'

end Machine

end Sys2Proof

/-! # The family of `spec/40_pulse_classifier.md`: the elapsed value and the classes -/

namespace Sys2Proof.Machine

variable {c : Config}

/-! ## The elapsed value (rules R100 and R102) -/

/-- An edge that does not lie before the previous one on the counter. -/
theorem elapsed_of_le {tick prev : Nat} (tick_lt : tick < c.period) (le : prev ≤ tick) :
    elapsed c tick prev = tick - prev := by
  rw [elapsed_eq_mod c tick (le.trans tick_lt.le), Nat.sub_add_comm le, Nat.add_mod_right,
    Nat.mod_eq_of_lt (by omega)]

/-- An edge that lies before the previous one: the counter has wrapped once between them. -/
theorem elapsed_of_gt {tick prev : Nat} (prev_lt : prev < c.period) (gt : tick < prev) :
    elapsed c tick prev = tick + c.period - prev := by
  rw [elapsed_eq_mod c tick prev_lt.le, Nat.mod_eq_of_lt (by omega)]

theorem elapsed_self (c : Config) (tick : Nat) : elapsed c tick tick = 0 := by
  simp [elapsed]

/-- Where the counter wraps at `2^TICK_W`, discarding the borrow of a subtraction is reduction modulo `PERIOD`. -/
theorem elapsed_eq_toNat_sub {tick prev : Nat} (tick_lt : tick < c.period) (prev_lt : prev < c.period)
    (pow : c.period = 2 ^ c.tickW) : elapsed c tick prev = (tickBits c tick - tickBits c prev).toNat := by
  rw [BitVec.toNat_sub, tickBits_toNat tick_lt, tickBits_toNat prev_lt, ← pow, elapsed_eq_mod c tick prev_lt.le]
  congr 1
  omega

/-- Settles O27: the two cases of the comparison, and the range, equal ticks and the power of two by their lemmas. -/
theorem elapsedByItsTwoCases : Obligations.ElapsedByItsTwoCases := by
  intro c tick prev tick_lt prev_lt
  refine ⟨?_, elapsed_lt c tick prev, elapsed_self c tick, elapsed_eq_toNat_sub tick_lt prev_lt⟩
  split_ifs with le
  · exact elapsed_of_le tick_lt le
  · exact elapsed_of_gt prev_lt (Nat.lt_of_not_le le)

/-- Between two samples of the free-running counter only the real time between them counts, modulo `PERIOD`: the samples'
own reductions cancel (R102, `spec/60_exceptions.md` R210). -/
theorem elapsed_timestampAt (c : Config) (t d : Nat) :
    elapsed c (timestampAt c (t + d)) (timestampAt c t) = d % c.period := by
  unfold elapsed timestampAt
  rw [Int.natCast_emod, Int.natCast_emod, ← Int.sub_emod, Nat.cast_add, add_sub_cancel_left, ← Int.natCast_emod,
    Int.toNat_natCast]

/-- Settles O28: an interval below `PERIOD` is its own residue. -/
theorem elapsedAliasesModuloPeriod : Obligations.ElapsedAliasesModuloPeriod := fun c t d =>
  ⟨elapsed_timestampAt c t d, fun d_lt => (elapsed_timestampAt c t d).trans (Nat.mod_eq_of_lt d_lt)⟩

/-! ## The classes (rules R103 and R104) -/

/-- Settles O29, class by class. -/
theorem classesByTheThresholds : Obligations.ClassesByTheThresholds := fun _ _ =>
  ⟨classify_syncGap, classify_channel, classify_noise⟩

/-- Settles O30: by rule R17 the thresholds are `0 < CHANNEL_MIN_WIDTH < SYNC_THRESHOLD < PERIOD`, which puts each boundary
on its side of them. -/
theorem classBoundaries : Obligations.ClassBoundaries := by
  intro c
  have noise_pos := c.channelMinWidth_pos
  have channel_lt := c.channelMinWidth_lt
  have sync_lt := c.syncThreshold_lt
  exact ⟨classify_syncGap.2 le_rfl, classify_channel.2 ⟨by omega, by omega⟩, classify_channel.2 ⟨le_rfl, channel_lt⟩,
    classify_noise.2 (by omega), classify_noise.2 noise_pos, classify_syncGap.2 (by omega)⟩

end Sys2Proof.Machine

/-! # The family of `spec/41_frame_fsm.md`: the desync, `EDGE` branch by branch, and clean signals -/

namespace Sys2Proof.Machine

open Sys2Proof.Statements

variable {c : Config}

/-! ## The desync (rules R129 and R208) -/

theorem desync_eq_desynced (r : Regs c) (cause : Cause) : r.desync cause = desynced r := rfl

/-- Settles O24: the registers that the desync writes are those that rule R129 lists. -/
theorem desyncWritesSevenRegisters : Obligations.DesyncWritesSevenRegisters := fun _ => desync_eq_desynced

/-- Rule R36 for a block that is not `Synced`. -/
theorem Regs.Inv.pubSync_eq_notSynced {r : Regs c} (inv : r.Inv) (fsm : r.fsm ≠ .synced) :
    r.pubSync = .notSynced := by
  cases published : r.pubSync with
  | notSynced => rfl
  | synced => exact absurd (inv.sync_iff.1 published) fsm

/-- The registers that a desync writes are zero already, by rules R36 and R38. -/
theorem Regs.Inv.desync_eq_self {r : Regs c} (inv : r.Inv) (fsm : r.fsm = .notSynced) (cause : Cause) :
    r.desync cause = r := by
  have pubSync := inv.pubSync_eq_notSynced (by simp [fsm])
  obtain ⟨candLen, haveRef, refCount, stability, mismatch⟩ := inv.idle fsm
  cases r
  simp_all only [Regs.desync, Regs.markNotSynced]

theorem exec_start (s : State) : exec .start s = .next (withRegs s s.regs.start) := rfl

theorem exec_stop (s : State) : exec .stop s = .next (withRegs s s.regs.stop) := rfl

/-- Settles O25: by the invariants for the desync; `START` and `STOP` write constants only. -/
theorem secondDesyncChangesNothing : Obligations.SecondDesyncChangesNothing := by
  refine ⟨fun c r cause inv fsm => inv.desync_eq_self fsm cause, fun s t h => ?_, fun s t h => ?_⟩
  · obtain rfl := Host.Outcome.next.inj ((exec_start s).symm.trans h)
    rfl
  · obtain rfl := Host.Outcome.next.inj ((exec_stop s).symm.trans h)
    rfl

/-! ## The branches of EDGE, each as an equation (rules R120 to R130) -/

/-- Each entry of `cand[]` after `APPEND(e)` (R124). -/
theorem append_cand_getElem (r : Regs c) (e : Nat) (room : r.candLen.val < c.maxChannels) (i : Fin c.maxChannels) :
    (r.append e room).cand[i] = if i.val = r.candLen.val then tickBits c e else r.cand[i] := by
  simp [Vector.getElem_set, eq_comm]

section Branches

variable {r : Regs c} {tick : Nat}

theorem operate_edge (lt : tick < c.period) : operate (.edge tick) r = .ok (r.edge tick) :=
  edgeChecked_of_lt r lt

theorem edge_of_stopped (run : r.run = false) : r.edge tick = r := by
  simp [Regs.edge, run]

theorem edge_of_noise (run : r.run = true) (cls : r.classAt tick = .noise) :
    r.edge tick = (r.setPrevTick tick).desync .noise :=
  edge_of_class run cls

theorem edge_of_opened (run : r.run = true) (cls : r.classAt tick = .syncGap) (fsm : r.fsm = .notSynced) :
    r.edge tick = (r.setPrevTick tick).openFrame :=
  (edge_of_class run cls).trans (if_pos fsm)

theorem edge_of_ignored (run : r.run = true) (cls : r.classAt tick = .channel) (fsm : r.fsm = .notSynced) :
    r.edge tick = r.setPrevTick tick :=
  (edge_of_class run cls).trans (if_pos fsm)

theorem edge_of_channel (run : r.run = true) (cls : r.classAt tick = .channel) (fsm : r.fsm ≠ .notSynced) :
    r.edge tick = (r.setPrevTick tick).appendOrOverflow (r.elapsedAt tick) :=
  (edge_of_class run cls).trans (if_neg fsm)

theorem edge_of_appended (run : r.run = true) (cls : r.classAt tick = .channel) (fsm : r.fsm ≠ .notSynced)
    (room : r.candLen.val < c.maxChannels) :
    r.edge tick = (r.setPrevTick tick).append (r.elapsedAt tick) (setPrevTick_room room) :=
  (edge_of_channel run cls fsm).trans (dif_pos room)

theorem edge_of_overflow (run : r.run = true) (cls : r.classAt tick = .channel) (fsm : r.fsm ≠ .notSynced)
    (full : r.candLen.val = c.maxChannels) : r.edge tick = (r.setPrevTick tick).desync .overflow :=
  (edge_of_channel run cls fsm).trans (dif_neg full.not_lt)

/-- A frame close acts on the registers with the previous-edge reference moved (R101, R130). -/
theorem edge_of_close (run : r.run = true) (cls : r.classAt tick = .syncGap) (fsm : r.fsm ≠ .notSynced) :
    r.edge tick = (r.setPrevTick tick).closeFrame :=
  (edge_of_class run cls).trans (if_neg fsm)

theorem edge_of_first (run : r.run = true) (cls : r.classAt tick = .syncGap) (fsm : r.fsm ≠ .notSynced)
    (ref : r.haveRef = false) : r.edge tick = (r.setPrevTick tick).closeFirst :=
  (edge_of_close run cls fsm).trans (if_pos ref)

theorem edge_of_match (run : r.run = true) (cls : r.classAt tick = .syncGap) (fsm : r.fsm ≠ .notSynced)
    (ref : r.haveRef = true) (count : r.candLen = r.refCount) : r.edge tick = (r.setPrevTick tick).closeMatch := by
  simp [edge_of_close run cls fsm, Regs.closeFrame, ref, count]

theorem edge_of_published (run : r.run = true) (cls : r.classAt tick = .syncGap) (fsm : r.fsm ≠ .notSynced)
    (ref : r.haveRef = true) (count : r.candLen = r.refCount)
    (stable : (stabilityNext r.stability).val = c.stableCount) :
    r.edge tick = { (r.setPrevTick tick).publish r.candLen with
      stability := stabilityNext r.stability, fsm := .synced, mismatch := 0, candLen := 0 } :=
  (edge_of_match run cls fsm ref count).trans (if_pos stable)

theorem edge_of_matched (run : r.run = true) (cls : r.classAt tick = .syncGap) (fsm : r.fsm ≠ .notSynced)
    (ref : r.haveRef = true) (count : r.candLen = r.refCount)
    (unstable : (stabilityNext r.stability).val ≠ c.stableCount) :
    r.edge tick = { r.setPrevTick tick with stability := stabilityNext r.stability, candLen := 0 } :=
  (edge_of_match run cls fsm ref count).trans (if_neg unstable)

theorem edge_of_mismatch (run : r.run = true) (cls : r.classAt tick = .syncGap) (fsm : r.fsm ≠ .notSynced)
    (ref : r.haveRef = true) (count : r.candLen ≠ r.refCount) :
    r.edge tick = (r.setPrevTick tick).closeMismatch := by
  simp [edge_of_close run cls fsm, Regs.closeFrame, ref, count]

theorem edge_of_tolerated (run : r.run = true) (cls : r.classAt tick = .syncGap) (fsm : r.fsm ≠ .notSynced)
    (ref : r.haveRef = true) (count : r.candLen ≠ r.refCount) (bound : r.mismatch.val + 1 ≤ c.retryBound) :
    r.edge tick = { r.setPrevTick tick with
      refCount := r.candLen, stability := stabilityOne c, mismatch := ⟨r.mismatch.val + 1, Nat.lt_succ_of_le bound⟩,
      candLen := 0 } :=
  (edge_of_mismatch run cls fsm ref count).trans (dif_pos bound)

theorem edge_of_retry (run : r.run = true) (cls : r.classAt tick = .syncGap) (fsm : r.fsm ≠ .notSynced)
    (ref : r.haveRef = true) (count : r.candLen ≠ r.refCount) (bound : c.retryBound < r.mismatch.val + 1) :
    r.edge tick = (r.setPrevTick tick).desync .retry :=
  (edge_of_mismatch run cls fsm ref count).trans (dif_neg bound.not_ge)

end Branches

/-! ## EDGE in any configuration -/

/-- Settles O21: the sum below `STABLE_COUNT` is not cut off and does not reach it. -/
theorem matchBelowThresholdOnlyCounts : Obligations.MatchBelowThresholdOnlyCounts := by
  intro c r tick run lt gap fsm ref count below
  have next : (stabilityNext r.stability).val = r.stability.val + 1 := min_eq_left below.le
  refine ⟨stabilityNext r.stability, ?_, next⟩
  rw [operate_edge lt, edge_of_matched run (classify_syncGap.2 gap) fsm ref count (next.trans_ne below.ne)]
  rfl

/-- A choice by the two thresholds is a choice by the class (R103). -/
theorem ite_thresholds_eq_match {α : Type} (r : Regs c) (tick : Nat) (noise channel gap : α) :
    (if r.elapsedAt tick < c.channelMinWidth then noise
      else if r.elapsedAt tick < c.syncThreshold then channel else gap) =
    match r.classAt tick with
    | .noise => noise
    | .channel => channel
    | .syncGap => gap := by
  cases cls : r.classAt tick with
  | noise => exact if_pos (classify_noise.1 cls)
  | channel =>
    obtain ⟨wide, short⟩ := classify_channel.1 cls
    rw [if_neg wide.not_gt, if_pos short]
  | syncGap =>
    have wide := classify_syncGap.1 cls
    rw [if_neg (c.channelMinWidth_lt.trans_le wide).not_gt, if_neg wide.not_gt]

/-- Settles O22: the table's row for an `EDGE` is read off the branch that it takes. -/
theorem fsmTransitionTable : Obligations.FsmTransitionTable := by
  intro c r r' i h
  obtain ⟨rfl, rfl⟩ | ⟨tick, rfl, -, answer⟩ | ⟨rfl, rfl⟩ | ⟨rfl, rfl⟩ | ⟨rfl, rfl⟩ := operate_ok h
  · rfl
  · have branch : EdgeCase r tick r' := answer ▸ edge_case r tick
    simp only [ite_thresholds_eq_match]
    cases branch with
    | stopped run => simp [run]
    | noise run cls => simp [run, cls]
    | opened run cls fsm | ignored run cls fsm => simp [run, cls, fsm]
    | appended run cls fsm room => simp [run, cls, fsm, room]
    | overflow run cls fsm full => simp [run, cls, full]
    | first run cls fsm ref => simp [run, cls, fsm, ref]
    | published run cls fsm ref count stable => simp [run, cls, fsm, ref, count, stable]
    | matched run cls fsm ref count unstable => simp [run, cls, fsm, ref, count, unstable.not_ge]
    | tolerated run cls fsm ref count bound => simp [run, cls, fsm, ref, count, bound]
    | retry run cls fsm ref count bound => simp [run, cls, fsm, ref, count, bound.not_ge]
  · rfl
  · rfl
  · rfl

end Sys2Proof.Machine

/-! ## EDGE branch by branch, in REF -/

namespace Sys2Proof.Statements

open Sys2Proof.Machine

variable {s : State} {tick e : Nat}

/-- No tick of `REF`'s range is refused (R84). -/
theorem exec_edge_of_lt (lt : tick < 65536) (s : State) :
    exec (.edge tick) s = .next (withRegs s (s.regs.edge tick)) := by
  simp only [exec, execEdge, edgeChecked_of_lt s.regs (show tick < Config.ref.period from lt), commit_ok, withRegs]

namespace Measures

theorem run (m : Measures s tick e) : s.regs.run = true := m.1

theorem exec_eq (m : Measures s tick e) : exec (.edge tick) s = .next (withRegs s (s.regs.edge tick)) :=
  exec_edge_of_lt m.2.1 s

/-- What `Measures` writes with the numbers of `REF` is ELAPSED (R100). -/
theorem elapsedAt_eq (m : Measures s tick e) : s.regs.elapsedAt tick = e := by
  obtain ⟨-, -, rfl⟩ := m
  exact elapsed_eq_mod Config.ref tick (s.regs.prevTick.isLt.le.trans_eq (by decide))

theorem classAt_noise (m : Measures s tick e) (lt : e < 1000) : s.regs.classAt tick = .noise :=
  classify_noise.2 (m.elapsedAt_eq.trans_lt lt)

theorem classAt_channel (m : Measures s tick e) (ge : 1000 ≤ e) (lt : e < 6600) : s.regs.classAt tick = .channel :=
  classify_channel.2 (m.elapsedAt_eq ▸ ⟨ge, lt⟩)

theorem classAt_gap (m : Measures s tick e) (ge : 6600 ≤ e) : s.regs.classAt tick = .syncGap :=
  classify_syncGap.2 (ge.trans_eq m.elapsedAt_eq.symm)

end Measures

/-- Settles O9. -/
theorem edgeWhileStoppedChangesNothing : Obligations.EdgeWhileStoppedChangesNothing := by
  intro s tick lt run
  rw [exec_edge_of_lt lt, edge_of_stopped run]
  rfl

/-- Settles O10. -/
theorem noiseDesyncs : Obligations.NoiseDesyncs := by
  intro s tick e m lt
  rw [m.exec_eq, edge_of_noise m.run (m.classAt_noise lt)]
  rfl

/-- Settles O11. -/
theorem syncGapOpensFrame : Obligations.SyncGapOpensFrame := by
  intro s tick e m ge fsm
  rw [m.exec_eq, edge_of_opened m.run (m.classAt_gap ge) fsm]
  rfl

/-- Settles O12. -/
theorem channelPulseIgnoredWhileNotSynced : Obligations.ChannelPulseIgnoredWhileNotSynced := by
  intro s tick e m ge lt fsm
  rw [m.exec_eq, edge_of_ignored m.run (m.classAt_channel ge lt) fsm]
  rfl

/-- Settles O13: the new `cand[]` and `cand_len` are those of `APPEND`. -/
theorem channelPulseAppended : Obligations.ChannelPulseAppended := by
  intro s tick e m ge lt fsm room
  refine ⟨(s.regs.append e room).cand, (s.regs.append e room).candLen, ?_, rfl, append_cand_getElem s.regs e room⟩
  rw [m.exec_eq, edge_of_appended m.run (m.classAt_channel ge lt) fsm room, m.elapsedAt_eq]
  rfl

/-- Settles O14. -/
theorem overflowDesyncs : Obligations.OverflowDesyncs := by
  intro s tick e m ge lt fsm full
  rw [m.exec_eq, edge_of_overflow m.run (m.classAt_channel ge lt) fsm full]
  rfl

/-- Settles O15. -/
theorem firstFrameRecordsItsCount : Obligations.FirstFrameRecordsItsCount := by
  intro s tick e m ge fsm ref
  rw [m.exec_eq, edge_of_first m.run (m.classAt_gap ge) fsm ref]
  rfl

/-- Settles O17: the new mismatch count is that of the tolerated case of `CLOSE_FRAME`. -/
theorem mismatchTolerated : Obligations.MismatchTolerated := by
  intro s tick e m ge fsm ref count below
  refine ⟨⟨s.regs.mismatch.val + 1, Nat.succ_lt_succ below⟩, ?_, rfl⟩
  rw [m.exec_eq, edge_of_tolerated m.run (m.classAt_gap ge) fsm ref count below]
  rfl

/-- Settles O18: the retry bound of `REF` is 3. -/
theorem mismatchBeyondRetryBoundDesyncs : Obligations.MismatchBeyondRetryBoundDesyncs := by
  intro s tick e m ge fsm ref count atBound
  have beyond : Config.ref.retryBound < s.regs.mismatch.val + 1 := Nat.lt_succ_of_le atBound.ge
  rw [m.exec_eq, edge_of_retry m.run (m.classAt_gap ge) fsm ref count beyond]
  rfl

end Sys2Proof.Statements

/-! ## Clean signals (rule R132) -/

namespace Sys2Proof.Machine

variable {c : Config}

/-- The registers after an edge that comes `d` ticks after the previous one. -/
def Regs.receive (r : Regs c) (d : Nat) : Regs c := r.edge (gapTick c r.prevTick.toNat d)

/-- The registers after the edges of a frame. -/
def Regs.receiveFrame (r : Regs c) (f : Frame) : Regs c := (f.widths ++ [f.gap]).foldl Regs.receive r

/-- Started registers that satisfy the invariants: the states in which a signal is measured. -/
structure Regs.Started (r : Regs c) : Prop where
  inv : r.Inv
  run : r.run = true

section Receive

variable {r : Regs c} {d : Nat} {ds : List Nat}

theorem Regs.Started.receive (st : r.Started) (d : Nat) : (r.receive d).Started where
  inv := (edge_case r _).inv st.inv (gapTick_lt _ _ _)
  run := (edge_case r _).run_eq.trans st.run

theorem Regs.Started.foldl_receive (st : r.Started) (ds : List Nat) : (ds.foldl Regs.receive r).Started := by
  induction ds generalizing r with
  | nil => exact st
  | cons d ds ih => exact ih (st.receive d)

theorem Regs.Started.elapsedAt_eq (st : r.Started) (lt : d < c.period) :
    r.elapsedAt (gapTick c r.prevTick.toNat d) = d :=
  elapsed_gapTick st.inv.prevTick_lt lt

theorem Regs.Started.classAt_channel (st : r.Started) (width : IsChannelWidth c d) :
    r.classAt (gapTick c r.prevTick.toNat d) = .channel :=
  classify_channel.2 (by rwa [st.elapsedAt_eq (width.2.trans c.syncThreshold_lt)])

theorem Regs.Started.classAt_gap (st : r.Started) (gap : IsGapWidth c d) :
    r.classAt (gapTick c r.prevTick.toNat d) = .syncGap :=
  classify_syncGap.2 (gap.1.trans_eq (st.elapsedAt_eq gap.2).symm)

/-- An edge received is the previous edge of the next. -/
theorem Regs.Started.receive_prevTick (st : r.Started) (d : Nat) :
    (r.receive d).prevTick.toNat = gapTick c r.prevTick.toNat d := by
  rw [Regs.receive, (edge_case r _).prevTick_eq st.run, tickBits_toNat (gapTick_lt _ _ _)]

/-- The `EDGE`s that report a signal are never refused, and leave the registers after its edges. -/
theorem Regs.Started.runInstrs_reported (st : r.Started) (ds : List Nat) :
    runInstrs (r.reported ds) r = .ok (ds.foldl Regs.receive r) := by
  induction ds generalizing r with
  | nil => rfl
  | cons d ds ih =>
    have first : operate (.edge (gapTick c r.prevTick.toNat d)) r = .ok (r.receive d) := operate_edge (gapTick_lt _ _ _)
    have rest := ih (st.receive d)
    rw [Regs.reported, st.receive_prevTick] at rest
    exact (runInstrs_cons_of_ok _ first).trans rest

theorem foldl_receive_frameIntervals (r : Regs c) (frames : List Frame) :
    (frameIntervals frames).foldl Regs.receive r = frames.foldl Regs.receiveFrame r :=
  List.foldl_flatMap ..

theorem receiveFrame_eq (r : Regs c) (f : Frame) :
    r.receiveFrame f = (f.widths.foldl Regs.receive r).receive f.gap :=
  List.foldl_append ..

end Receive

/-! ### The pulses of a frame -/

/-- The frame in progress has the pulses `ws`, as `Regs.Shows` says it of the published frame. -/
def Regs.Holds (r : Regs c) (ws : List Nat) : Prop :=
  r.candLen.val = ws.length ∧
    ∀ (i : Nat) (h : i < ws.length) (h' : i < c.maxChannels), r.cand[i].toNat = ws[i]

/-- Only the registers that a pulse in an open frame writes differ (R43, R124). -/
def Regs.SameButFrame (r r' : Regs c) : Prop :=
  r' = { r with prevTick := r'.prevTick, cand := r'.cand, candLen := r'.candLen }

section Pulses

variable {r r' r'' : Regs c} {ws : List Nat}

theorem holds_nil (h : r.candLen = 0) : r.Holds [] := ⟨congrArg Fin.val h, by simp⟩

theorem Regs.SameButFrame.refl (r : Regs c) : r.SameButFrame r := rfl

theorem Regs.SameButFrame.trans (h : r.SameButFrame r') (h' : r'.SameButFrame r'') : r.SameButFrame r'' :=
  Eq.trans h' (by rw [h])

theorem Regs.SameButFrame.fsm_eq (h : r.SameButFrame r') : r'.fsm = r.fsm := by rw [h]

theorem Regs.SameButFrame.haveRef_eq (h : r.SameButFrame r') : r'.haveRef = r.haveRef := by rw [h]

theorem Regs.SameButFrame.refCount_eq (h : r.SameButFrame r') : r'.refCount = r.refCount := by rw [h]

theorem Regs.SameButFrame.stability_eq (h : r.SameButFrame r') : r'.stability = r.stability := by rw [h]

/-- `APPEND` puts one pulse at the end of the frame in progress (R124). -/
theorem Regs.Holds.append {vs : List Nat} {e : Nat} (h : r.Holds vs) (room : r.candLen.val < c.maxChannels)
    (lt : e < c.period) : (r.append e room).Holds (vs ++ [e]) := by
  obtain ⟨len, entry⟩ := h
  refine ⟨by simp [len], fun i hi hi' => ?_⟩
  have stored := append_cand_getElem r e room ⟨i, hi'⟩
  rw [Fin.getElem_fin] at stored
  rw [stored]
  rcases Nat.lt_succ_iff_lt_or_eq.1 (by simpa using hi) with old | rfl
  · simp [len, old.ne, List.getElem_append_left old, entry i old hi']
  · simp [len, tickBits_toNat lt]

/-- Channel pulses that find room in an open frame are stored in their order, and do nothing else (R124). -/
theorem Regs.Started.foldl_receive_open (st : r.Started) (fsm : r.fsm ≠ .notSynced) {vs : List Nat}
    (held : r.Holds vs) (widths : ∀ x ∈ ws, IsChannelWidth c x) (room : vs.length + ws.length ≤ c.maxChannels) :
    (ws.foldl Regs.receive r).Holds (vs ++ ws) ∧ r.SameButFrame (ws.foldl Regs.receive r) := by
  induction ws generalizing r vs with
  | nil => exact ⟨by simpa using held, .refl r⟩
  | cons d ws ih =>
    obtain ⟨width, widths⟩ := List.forall_mem_cons.1 widths
    rw [List.length_cons] at room
    have roomForOne : r.candLen.val < c.maxChannels := by rw [held.1]; omega
    have roomForRest : (vs ++ [d]).length + ws.length ≤ c.maxChannels := by
      rw [List.length_append, List.length_singleton]; omega
    have lt : d < c.period := width.2.trans c.syncThreshold_lt
    have stored : r.receive d =
        (r.setPrevTick (gapTick c r.prevTick.toNat d)).append d (setPrevTick_room roomForOne) := by
      rw [Regs.receive, edge_of_appended st.run (st.classAt_channel width) fsm roomForOne, st.elapsedAt_eq lt]
    have same : r.SameButFrame (r.receive d) := by rw [stored]; rfl
    have heldMore : (r.receive d).Holds (vs ++ [d]) := by
      rw [stored]
      exact Regs.Holds.append (r := r.setPrevTick _) held roomForOne lt
    obtain ⟨holds, sameRest⟩ := ih (st.receive d) (same.fsm_eq.trans_ne fsm) heldMore widths roomForRest
    exact ⟨by simpa using holds, same.trans sameRest⟩

/-- Channel pulses are ignored in `NotSynced` (R123). -/
theorem Regs.Started.foldl_receive_notSynced (st : r.Started) (fsm : r.fsm = .notSynced)
    (widths : ∀ x ∈ ws, IsChannelWidth c x) : (ws.foldl Regs.receive r).fsm = .notSynced := by
  induction ws generalizing r with
  | nil => exact fsm
  | cons d ws ih =>
    obtain ⟨width, widths⟩ := List.forall_mem_cons.1 widths
    have ignored : (r.receive d).fsm = .notSynced := by
      rw [Regs.receive, edge_of_ignored st.run (st.classAt_channel width) fsm]
      exact fsm
    exact ih (st.receive d) ignored widths

end Pulses

/-! ### The gap that closes a frame -/

/-- The frames closed last, `k` of them as far as the validator counts, had `w` pulses each (R27, R28); with `k` = 0
no count is learned. -/
inductive Regs.Counts (r : Regs c) (w : Nat) : Nat → Prop
  | unlearned (fsm : r.fsm ≠ .notSynced) (ref : r.haveRef = false) : Counts r w 0
  | learned {k : Nat} (fsm : r.fsm ≠ .notSynced) (ref : r.haveRef = true) (count : r.refCount.val = w)
      (stability : r.stability.val = min (k + 1) c.stableCount) : Counts r w (k + 1)

/-- Started registers with no pulse of a frame in them, as every sync gap leaves them. -/
structure Regs.AtFrameStart (r : Regs c) : Prop extends r.Started where
  candLen : r.candLen = 0

section Gap

variable {r r' : Regs c} {w k d : Nat} {ws : List Nat}

theorem Regs.Counts.fsm_ne (h : r.Counts w k) : r.fsm ≠ .notSynced := by
  cases h <;> assumption

theorem Regs.Counts.congr (h : r.Counts w k) (same : r.SameButFrame r') : r'.Counts w k := by
  cases h with
  | unlearned fsm ref => exact .unlearned (same.fsm_eq.trans_ne fsm) (same.haveRef_eq.trans ref)
  | learned fsm ref count stability =>
    exact .learned (same.fsm_eq.trans_ne fsm) (same.haveRef_eq.trans ref) (same.refCount_eq ▸ count)
      (same.stability_eq ▸ stability)

/-- A count just learned has been seen once. -/
theorem counts_one (fsm : r.fsm ≠ .notSynced) (ref : r.haveRef = true) (count : r.refCount.val = w)
    (stability : r.stability = stabilityOne c) : r.Counts w 1 :=
  .learned fsm ref count (by
    rw [stability, stabilityOne_val, min_eq_left]
    exact one_le_two.trans c.two_le_stableCount)

/-- Whatever a sync gap does, no pulse is left of the frame before it. -/
theorem EdgeCase.candLen_of_gap {tick : Nat} (h : EdgeCase r tick r') (run : r.run = true)
    (cls : r.classAt tick = .syncGap) : r'.candLen = 0 := by
  cases h with
  | stopped stopped => simp [run] at stopped
  | noise _ other | ignored _ other | appended _ other | overflow _ other => simp [cls] at other
  | opened | first | published | matched | tolerated | retry => rfl

/-- Every close learns the count of the frame closed, if it does not desynchronise. -/
theorem EdgeCase.counts_or_notSynced {tick : Nat} (h : EdgeCase r tick r') (run : r.run = true)
    (cls : r.classAt tick = .syncGap) (fsm : r.fsm ≠ .notSynced) :
    (∃ k, r'.Counts r.candLen.val k) ∨ r'.fsm = .notSynced := by
  cases h with
  | stopped stopped => simp [run] at stopped
  | noise _ other | ignored _ other | appended _ other | overflow _ other => simp [cls] at other
  | opened _ _ notSynced => exact absurd notSynced fsm
  | first => exact .inl ⟨1, counts_one fsm rfl rfl rfl⟩
  | published _ _ _ ref count => exact .inl ⟨_, .learned (by simp) ref (congrArg Fin.val count.symm) rfl⟩
  | matched _ _ _ ref count => exact .inl ⟨_, .learned fsm ref (congrArg Fin.val count.symm) rfl⟩
  | tolerated _ _ _ ref => exact .inl ⟨1, counts_one fsm ref rfl rfl⟩
  | retry => exact .inr rfl

theorem Regs.Started.receive_gap (st : r.Started) (gap : IsGapWidth c d) : (r.receive d).AtFrameStart where
  toStarted := st.receive d
  candLen := (edge_case r _).candLen_of_gap st.run (st.classAt_gap gap)

theorem Regs.Started.receive_gap_notSynced (st : r.Started) (fsm : r.fsm = .notSynced) (gap : IsGapWidth c d)
    (w : Nat) :
    (r.receive d).fsm = .accumulating ∧ (r.receive d).Counts w 0 := by
  obtain ⟨-, ref, -⟩ := st.inv.idle fsm
  rw [Regs.receive, edge_of_opened st.run (st.classAt_gap gap) fsm]
  exact ⟨rfl, .unlearned (by simp) ref⟩

/-- The publishing close shows the pulses of the frame in progress (R161). -/
theorem Regs.Holds.shows_publish (held : r.Holds ws) : (r.publish r.candLen).Shows ws := by
  obtain ⟨len, entry⟩ := held
  refine ⟨rfl, len, fun i hi hi' => ?_⟩
  rw [← entry i hi hi']
  exact (publish_pubCh_getElem r r.candLen ⟨i, hi'⟩).trans (if_pos (hi.trans_eq len.symm))

/-- Closing one more frame of the count: below `STABLE_COUNT` it is only counted, from there on it is published
(R126, R127). -/
theorem Regs.Counts.receive_gap (counts : r.Counts ws.length k) (st : r.Started) (held : r.Holds ws)
    (gap : IsGapWidth c d) :
    (r.receive d).Counts ws.length (k + 1) ∧ (k + 1 < c.stableCount → (r.receive d).fsm = r.fsm) ∧
      (c.stableCount ≤ k + 1 → (r.receive d).Shows ws) := by
  have cls := st.classAt_gap gap
  cases counts with
  | unlearned fsm ref =>
    rw [Regs.receive, edge_of_first st.run cls fsm ref]
    exact ⟨counts_one fsm rfl held.1 rfl, fun _ => rfl, fun reached => absurd c.two_le_stableCount reached.not_gt⟩
  | @learned k fsm ref count stability =>
    have count' : r.candLen = r.refCount := Fin.ext (held.1.trans count.symm)
    have next : (stabilityNext r.stability).val = min (k + 2) c.stableCount := by
      rw [stabilityNext_val, stability]; omega
    by_cases stable : (stabilityNext r.stability).val = c.stableCount
    · rw [Regs.receive, edge_of_published st.run cls fsm ref count' stable]
      exact ⟨.learned (by simp) ref count next, fun below => by omega,
        fun _ => Regs.Holds.shows_publish (r := r.setPrevTick _) held⟩
    · rw [Regs.receive, edge_of_matched st.run cls fsm ref count' stable]
      exact ⟨.learned fsm ref count next, fun _ => rfl, fun reached => by omega⟩

end Gap

/-! ### Frames -/

section Frames

variable {r : Regs c} {w k : Nat} {f : Frame} {frames : List Frame}

theorem Regs.Started.receiveFrame (st : r.Started) (clean : f.Clean c w) : (r.receiveFrame f).AtFrameStart := by
  obtain ⟨-, -, gap⟩ := clean
  rw [receiveFrame_eq]
  exact (st.foldl_receive f.widths).receive_gap gap

/-- From `NotSynced` the gap of a frame opens the next (R122, R123). -/
theorem Regs.Started.receiveFrame_notSynced (st : r.Started) (fsm : r.fsm = .notSynced) (clean : f.Clean c w) :
    (r.receiveFrame f).Counts w 0 := by
  obtain ⟨-, widths, gap⟩ := clean
  rw [receiveFrame_eq]
  exact ((st.foldl_receive f.widths).receive_gap_notSynced (st.foldl_receive_notSynced fsm widths) gap w).2

/-- The pulses of a frame that fits are all held when its gap comes. -/
theorem Regs.AtFrameStart.foldl_receive_widths (st : r.AtFrameStart) (fsm : r.fsm ≠ .notSynced)
    (cap : w ≤ c.maxChannels) (clean : f.Clean c w) :
    (f.widths.foldl Regs.receive r).Holds f.widths ∧ r.SameButFrame (f.widths.foldl Regs.receive r) := by
  obtain ⟨len, widths, -⟩ := clean
  exact st.foldl_receive_open fsm (holds_nil st.candLen) widths (by simpa [len] using cap)

theorem Regs.AtFrameStart.receiveFrame_open (st : r.AtFrameStart) (fsm : r.fsm ≠ .notSynced)
    (cap : w ≤ c.maxChannels) (clean : f.Clean c w) :
    (∃ k, (r.receiveFrame f).Counts w k) ∨ (r.receiveFrame f).fsm = .notSynced := by
  obtain ⟨held, same⟩ := st.foldl_receive_widths fsm cap clean
  obtain ⟨len, -, gap⟩ := clean
  have pulses := st.foldl_receive f.widths
  rw [receiveFrame_eq, ← len, ← held.1]
  exact (edge_case _ _).counts_or_notSynced pulses.run (pulses.classAt_gap gap) (same.fsm_eq.trans_ne fsm)

theorem Regs.Counts.receiveFrame (counts : r.Counts w k) (st : r.AtFrameStart) (cap : w ≤ c.maxChannels)
    (clean : f.Clean c w) :
    (r.receiveFrame f).Counts w (k + 1) ∧ (k + 1 < c.stableCount → (r.receiveFrame f).fsm = r.fsm) ∧
      (c.stableCount ≤ k + 1 → (r.receiveFrame f).Shows f.widths) := by
  obtain ⟨held, same⟩ := st.foldl_receive_widths counts.fsm_ne cap clean
  obtain ⟨rfl, -, gap⟩ := clean
  rw [receiveFrame_eq, ← same.fsm_eq]
  exact (counts.congr same).receive_gap (st.foldl_receive f.widths) held gap

/-- Each clean frame is counted, and `fsm` stays while the count is tentative. -/
theorem Regs.Counts.foldl_receiveFrame (counts : r.Counts w k) (st : r.AtFrameStart) (cap : w ≤ c.maxChannels)
    (clean : ∀ f ∈ frames, f.Clean c w) :
    (frames.foldl Regs.receiveFrame r).AtFrameStart ∧
      (frames.foldl Regs.receiveFrame r).Counts w (k + frames.length) ∧
      (k + frames.length < c.stableCount → (frames.foldl Regs.receiveFrame r).fsm = r.fsm) := by
  induction frames generalizing r k with
  | nil => exact ⟨st, counts, fun _ => rfl⟩
  | cons f frames ih =>
    obtain ⟨clean, cleanRest⟩ := List.forall_mem_cons.1 clean
    obtain ⟨counted, fsm, -⟩ := counts.receiveFrame st cap clean
    obtain ⟨start, all, fsmRest⟩ := ih counted (st.receiveFrame clean) cleanRest
    have length : k + 1 + frames.length = k + (f :: frames).length := by rw [List.length_cons]; omega
    rw [length] at all fsmRest
    exact ⟨start, all, fun below => (fsmRest below).trans (fsm (by omega))⟩

/-- From the `STABLE_COUNT`-th frame of the count on, the last frame is the one published (R132). -/
theorem Regs.Counts.shows_getLast (counts : r.Counts w k) (st : r.AtFrameStart) (cap : w ≤ c.maxChannels)
    (clean : ∀ f ∈ frames, f.Clean c w) (reached : c.stableCount ≤ k + frames.length)
    (last : frames.getLast? = some f) :
    (frames.foldl Regs.receiveFrame r).Shows f.widths := by
  obtain ⟨init, rfl⟩ := List.getLast?_eq_some_iff.1 last
  rw [List.forall_mem_append, List.forall_mem_singleton] at clean
  obtain ⟨cleanInit, cleanLast⟩ := clean
  obtain ⟨start, counted, -⟩ := counts.foldl_receiveFrame st cap cleanInit
  obtain ⟨-, -, published⟩ := counted.receiveFrame start cap cleanLast
  rw [List.foldl_append]
  exact published (by simpa [Nat.add_assoc] using reached)

/-- Two clean frames from any frame start are enough for the validator to count them: the first can at worst end in a
desync, and then the second opens a frame. -/
theorem Regs.AtFrameStart.exists_counts {f g : Frame} (st : r.AtFrameStart) (cap : w ≤ c.maxChannels)
    (clean : f.Clean c w) (cleanNext : g.Clean c w) : ∃ k, ((r.receiveFrame f).receiveFrame g).Counts w k := by
  have mid : (r.receiveFrame f).AtFrameStart := st.receiveFrame clean
  have counted_or : (∃ k, (r.receiveFrame f).Counts w k) ∨ (r.receiveFrame f).fsm = .notSynced := by
    by_cases fsm : r.fsm = .notSynced
    · exact .inl ⟨0, st.receiveFrame_notSynced fsm clean⟩
    · exact st.receiveFrame_open fsm cap clean
  obtain ⟨k, counts⟩ | notSynced := counted_or
  · exact ⟨k + 1, (counts.receiveFrame mid cap cleanNext).1⟩
  · exact ⟨0, mid.receiveFrame_notSynced notSynced cleanNext⟩

/-- A signal is its leading gap and then its frames. -/
theorem Regs.Started.runInstrs_signal (st : r.Started) (lead : Nat) (frames : List Frame) :
    runInstrs (r.reported (signal lead frames)) r = .ok (frames.foldl Regs.receiveFrame (r.receive lead)) := by
  rw [st.runInstrs_reported, signal, List.foldl_cons, foldl_receive_frameIntervals]

end Frames

/-- Settles O56: the leading gap opens the first frame, with no count learned. -/
theorem cleanSignalSyncsAfterStableCountFrames : Obligations.CleanSignalSyncsAfterStableCountFrames := by
  intro c r w lead frames inv run fsm gap cap clean
  have st : r.Started := ⟨inv, run⟩
  obtain ⟨accumulating, counts⟩ := st.receive_gap_notSynced fsm gap w
  have start := st.receive_gap gap
  obtain ⟨done, -, fsmKept⟩ := counts.foldl_receiveFrame start cap clean
  rw [Nat.zero_add] at fsmKept
  refine ⟨_, st.runInstrs_signal lead frames, fun few => ?_, fun enough f last => ?_⟩
  · exact done.inv.pubSync_eq_notSynced (by simp [fsmKept few, accumulating])
  · exact counts.shows_getLast start cap clean (by simpa using enough) last

/-- Settles O57: two frames for the block to find the count, `STABLE_COUNT` frames to confirm it. -/
theorem cleanSignalSyncsFromAnyState : Obligations.CleanSignalSyncsFromAnyState := by
  intro c r w lead frames inv run gap cap clean long
  have st : r.Started := ⟨inv, run⟩
  have start := st.receive_gap gap
  refine ⟨_, st.runInstrs_signal lead frames, fun f last => ?_⟩
  match frames, long with
  | first :: second :: rest, long =>
    obtain ⟨cleanFirst, clean⟩ := List.forall_mem_cons.1 clean
    obtain ⟨cleanSecond, cleanRest⟩ := List.forall_mem_cons.1 clean
    obtain ⟨k, counts⟩ := start.exists_counts cap cleanFirst cleanSecond
    have two := c.two_le_stableCount
    simp only [List.length_cons] at long
    have rest_ne : rest ≠ [] := List.length_pos_iff.1 (by omega)
    have lastOfRest : rest.getLast? = some f := (List.getLast?_append_of_ne_nil [first, second] rest_ne).symm.trans last
    exact counts.shows_getLast ((start.receiveFrame cleanFirst).receiveFrame cleanSecond) cap cleanRest (by omega)
      lastOfRest

end Sys2Proof.Machine

/-! # The family of `spec/42_converter.md`: the conversion is exact and strictly increasing -/

namespace Sys2Proof

/-- Two's complement of any width, 0 included, holds every integer smaller in size than half of its range. -/
theorem toInt_ofInt_of_abs_lt {w : Nat} {n : Int} (fits : |n| < 2 ^ (w - 1)) : (BitVec.ofInt w n).toInt = n := by
  obtain ⟨lo, hi⟩ := abs_lt.1 fits
  cases w with
  | zero => simp only [BitVec.toInt_of_zero_length]; omega
  | succ w => exact BitVec.toInt_ofInt_eq_self w.succ_pos lo.le hi

namespace Machine

variable {c : Config} {e : Nat}

/-- Clause (f) of rule R17 speaks of the two ends of the range of channel pulses; every pulse between them is no
farther from the centre than one of the two. -/
theorem abs_convert_lt (width : IsChannelWidth c e) : |convert c e| < 2 ^ (c.chvalW - 1) := by
  obtain ⟨least, greatest⟩ := width
  obtain ⟨-, -, -, -, fits⟩ := c.clauses
  obtain ⟨leastFits, greatestFits⟩ := (c.toParams.conversionFits_iff (Nat.one_le_of_lt greatest)).1 fits
  have nearer : |(e : Int) - c.centerTicks| ≤
      max |(c.channelMinWidth : Int) - c.centerTicks| |(c.syncThreshold : Int) - 1 - c.centerTicks| :=
    abs_le_max_abs_abs (by omega) (by omega)
  calc |convert c e| = |(e : Int) - c.centerTicks| * c.scale := by rw [convert, abs_mul, Nat.abs_cast]
    _ ≤ max |(c.channelMinWidth : Int) - c.centerTicks| |(c.syncThreshold : Int) - 1 - c.centerTicks| * c.scale :=
      mul_le_mul_of_nonneg_right nearer (Int.natCast_nonneg _)
    _ < 2 ^ (c.chvalW - 1) := by
      rw [max_mul_of_nonneg _ _ (Int.natCast_nonneg _)]
      exact max_lt leastFits greatestFits

theorem toInt_convertBits (width : IsChannelWidth c e) : (convertBits c e).toInt = convert c e :=
  toInt_ofInt_of_abs_lt (abs_convert_lt width)

/-- Settles O33: the conversion fits its register. -/
theorem conversionIsExact : Obligations.ConversionIsExact := fun _ _ => toInt_convertBits

theorem convert_succ_sub (c : Config) (e : Nat) : convert c (e + 1) - convert c e = c.scale := by
  simp only [convert, Nat.cast_add, Nat.cast_one]
  ring

theorem convert_strictMono (c : Config) : StrictMono (convert c) :=
  strictMono_nat_of_lt_succ fun e => by
    have step := convert_succ_sub c e
    have pos := c.one_le_scale
    omega

/-- Settles O34: where the registers hold the exact conversion, they increase as it does. -/
theorem conversionStrictlyIncreasing : Obligations.ConversionStrictlyIncreasing := by
  intro c
  refine ⟨c.one_le_scale, convert_succ_sub c, fun e₁ e₂ width₁ width₂ lt => ?_⟩
  rw [toInt_convertBits width₁, toInt_convertBits width₂]
  exact convert_strictMono c lt

theorem toInt_convertBits_ref (least : 1000 ≤ e) (greatest : e < 6600) :
    (convertBits Config.ref e).toInt = ((e : Int) - 3000) * 10 :=
  toInt_convertBits ⟨least, greatest⟩

/-- Settles O35: each reference point is a legal channel pulse of `REF`, so its conversion is exact. -/
theorem conversionReferencePoints : Obligations.ConversionReferencePoints := by
  refine ⟨?_, ?_, ?_, ?_, ?_, ?_⟩ <;> rw [toInt_convertBits_ref (by decide) (by decide)] <;> rfl

end Machine

end Sys2Proof

/-! # The family of `spec/43_frame_store.md`: the publication and READ -/

namespace Sys2Proof.Machine

open Sys2Proof.Statements

variable {c : Config}

/-! ## The publication (rules R127 and R161) -/

theorem stabilityNext_of_le {s : Fin (c.stableCount + 1)} (reached : c.stableCount ≤ s.val + 1) :
    (stabilityNext s).val = c.stableCount := min_eq_right reached

/-- Settles O16: in `REF` one match after the first frame reaches `STABLE_COUNT`, and the new `pub_ch[]` is that of
`PUBLISH`. -/
theorem matchingFramePublished : Obligations.MatchingFramePublished := by
  intro s tick e m ge fsm ref count learned
  have stable : (stabilityNext s.regs.stability).val = Config.ref.stableCount :=
    stabilityNext_of_le (Nat.succ_le_succ learned)
  have two : stabilityNext s.regs.stability = ⟨2, by decide⟩ := Fin.ext stable
  refine ⟨(s.regs.publish s.regs.candLen).pubCh, ?_, publish_pubCh_getElem s.regs s.regs.candLen⟩
  rw [m.exec_eq, edge_of_published m.run (m.classAt_gap ge) fsm ref count stable, two]
  rfl

/-! ## READ (rule R163) -/

/-- Settles O6. -/
theorem readReturnsTheFrameWord : Obligations.ReadReturnsTheFrameWord := fun _ _ => ⟨rfl, rfl⟩

/-- Settles O7: the machine gives the consumer what READ returns. -/
theorem readGivesTheConsumerTheWord : Obligations.ReadGivesTheConsumerTheWord := by
  intro s
  obtain ⟨word, kept⟩ := readReturnsTheFrameWord Config.ref s.regs
  rw [exec_eq_operate, kept, word]
  rfl

end Sys2Proof.Machine

/-! # The family of `spec/44_lifecycle.md`: NOP, START and STOP -/

namespace Sys2Proof.Machine

open Sys2Proof.Statements

variable {c : Config}

/-- `START` in every configuration (R181): the desync of R129, and three registers more. -/
theorem start_eq_desynced (r : Regs c) :
    r.start = { desynced r with prevTick := 0, pubCount := 0, run := true } := by
  rw [Regs.start, desync_eq_desynced]

/-- `STOP` in every configuration (R182): the desync of R129, and `run`. -/
theorem stop_eq_desynced (r : Regs c) : r.stop = { desynced r with run := false } := by
  rw [Regs.stop, desync_eq_desynced]

/-- Settles O3. -/
theorem nopChangesNothing : Obligations.NopChangesNothing := exec_nop_eq_next

/-- Settles O4: on the machine `START` is that of the registers, which the desync begins. -/
theorem startClearsAllButTheFiles : Obligations.StartClearsAllButTheFiles := by
  intro s
  rw [exec_start, start_eq_desynced]

/-- Settles O5: on the machine `STOP` is that of the registers, which the desync begins. -/
theorem stopDesyncsAndStops : Obligations.StopDesyncsAndStops := by
  intro s
  rw [exec_stop, stop_eq_desynced]

end Sys2Proof.Machine

/-! # The family of `spec/60_exceptions.md`: the causes of a desync, EDGE against STOP, and the least recovery -/

namespace Sys2Proof.Machine

variable {c : Config}

/-! ## The causes of a desync (rule R201) -/

section Causes

variable {r r' : Regs c} {tick : Nat}

/-- An open frame is there only while the block is started, the contraposition of rule R37. -/
theorem Regs.Inv.run_eq_true (inv : r.Inv) (fsm : r.fsm ≠ .notSynced) : r.run = true := by
  by_contra stopped
  exact fsm (inv.stopped (Bool.eq_false_of_not_eq_true stopped))

/-- Each class of pulse has one way to desynchronise an open frame (R205). -/
theorem EdgeCase.fsm_eq_notSynced_iff (h : EdgeCase r tick r') (run : r.run = true) (fsm : r.fsm ≠ .notSynced) :
    r'.fsm = .notSynced ↔
      r.classAt tick = .noise ∨
      (r.classAt tick = .channel ∧ r.candLen.val = c.maxChannels) ∨
      (r.classAt tick = .syncGap ∧ r.haveRef = true ∧ r.candLen ≠ r.refCount ∧
        c.retryBound < r.mismatch.val + 1) := by
  cases h with
  | stopped stopped => simp [run] at stopped
  | opened _ _ notSynced | ignored _ _ notSynced => exact absurd notSynced fsm
  | noise _ cls => simp [cls]
  | overflow _ cls _ full => simp [cls, full]
  | retry _ cls _ ref count bound => simp [cls, ref, count, bound]
  | appended _ cls _ room => simp [cls, fsm, room.ne]
  | first _ cls _ ref => simp [cls, fsm, ref]
  | published _ cls _ _ count | matched _ cls _ _ count => simp [cls, fsm, count]
  | tolerated _ cls _ _ _ bound => simp [cls, fsm, bound.not_gt]

end Causes

/-- Settles O23: an `EDGE` by its branch; the classes are the ranges of the elapsed value. -/
theorem desyncExactlyForTheFiveCauses : Obligations.DesyncExactlyForTheFiveCauses := by
  intro c r r' i inv fsm h
  obtain ⟨rfl, rfl⟩ | ⟨tick, rfl, -, rfl⟩ | ⟨rfl, rfl⟩ | ⟨rfl, rfl⟩ | ⟨rfl, rfl⟩ := operate_ok h
  · simp [fsm]
  · rw [(edge_case r tick).fsm_eq_notSynced_iff (inv.run_eq_true fsm) fsm, Regs.classAt, classify_noise,
      classify_channel, classify_syncGap]
    simp
  · simp
  · simp
  · simp [fsm]

/-! ## EDGE and STOP in either order (rule R204) -/

section EdgeAndStop

variable {r r' : Regs c} {tick : Nat}

/-- Only a channel pulse in an open frame is stored (R43, R124). -/
theorem EdgeCase.cand_eq (h : EdgeCase r tick r')
    (unstored : ¬ (IsChannelWidth c (r.elapsedAt tick) ∧ r.fsm ≠ .notSynced)) : r'.cand = r.cand := by
  cases h with
  | appended _ cls fsm => exact absurd ⟨classify_channel.1 cls, fsm⟩ unstored
  | _ => rfl

/-- `STOP` keeps `prev_tick`, `cand[]`, `pub_count` and `pub_ch[]`, and writes constants to the others (R129, R182). -/
theorem stop_eq_of_kept_eq (cand : r'.cand = r.cand) (pubCount : r'.pubCount = r.pubCount)
    (pubCh : r'.pubCh = r.pubCh) : { r'.stop with prevTick := r.stop.prevTick } = r.stop := by
  simp only [Regs.stop, Regs.desync, Regs.markNotSynced, cand, pubCount, pubCh]

theorem runInstrs_edge_stop (lt : tick < c.period) : runInstrs [.edge tick, .stop] r = .ok (r.edge tick).stop :=
  runInstrs_cons_of_ok _ (operate_edge lt)

/-- An `EDGE` after a `STOP` finds the block stopped (R120). -/
theorem runInstrs_stop_edge (lt : tick < c.period) : runInstrs [.stop, .edge tick] r = .ok r.stop := by
  have ignored : operate (.edge tick) r.stop = .ok r.stop := by
    rw [operate_edge lt, edge_of_stopped (Regs.stop_run r)]
  exact (runInstrs_cons_of_ok _ rfl).trans (runInstrs_cons_of_ok [] ignored)

end EdgeAndStop

/-- Settles O26: both orders end in a `STOP`'s registers, and what the `EDGE` before it can leave behind is
`prev_tick`, a stored pulse or a publication. -/
theorem edgeAndStopInEitherOrder : Obligations.EdgeAndStopInEitherOrder := by
  intro c r tick lt
  refine ⟨(r.edge tick).stop, r.stop, runInstrs_edge_stop lt, runInstrs_stop_edge lt, rfl, rfl, rfl, rfl, rfl, rfl,
    fun unstored unpublished => ?_⟩
  have branch := edge_case r tick
  obtain ⟨pubCount, pubCh⟩ | ⟨publishes, -⟩ := branch.store
  · exact stop_eq_of_kept_eq (branch.cand_eq unstored) pubCount pubCh
  · exact absurd publishes unpublished

/-! ## The least recovery (rule R207) -/

/-- How far the block has come from a desync, in sync gaps: the gap that opened the first frame and one for every
frame the validator counts, `1 + STABLE_COUNT` of them once it is `Synced` (R207). -/
def Regs.gapsCredited (r : Regs c) : Nat :=
  match r.fsm with
  | .notSynced => 0
  | .accumulating => 1 + r.stability.val
  | .synced => 1 + c.stableCount

section Recovery

variable {r r' : Regs c} {tick : Nat} {i : Instr}

theorem gapsCredited_of_notSynced (fsm : r.fsm = .notSynced) : r.gapsCredited = 0 := by
  simp only [Regs.gapsCredited, fsm]

theorem gapsCredited_of_accumulating (fsm : r.fsm = .accumulating) : r.gapsCredited = 1 + r.stability.val := by
  simp only [Regs.gapsCredited, fsm]

theorem gapsCredited_of_synced (fsm : r.fsm = .synced) : r.gapsCredited = 1 + c.stableCount := by
  simp only [Regs.gapsCredited, fsm]

/-- Where `fsm` stays, the credit grows by no more than the stability counter. -/
theorem gapsCredited_le_add {k : Nat} (fsm : r'.fsm = r.fsm) (stability : r'.stability.val ≤ r.stability.val + k) :
    r'.gapsCredited ≤ r.gapsCredited + k := by
  cases old : r.fsm with
  | notSynced => simp [gapsCredited_of_notSynced (fsm.trans old)]
  | accumulating =>
    rw [gapsCredited_of_accumulating (fsm.trans old), gapsCredited_of_accumulating old]
    omega
  | synced => simp [gapsCredited_of_synced (fsm.trans old), gapsCredited_of_synced old]

/-- An open frame one match short of `STABLE_COUNT` has all the credit but one gap. -/
theorem stableCount_le_gapsCredited (fsm : r.fsm ≠ .notSynced) (stable : c.stableCount ≤ r.stability.val + 1) :
    c.stableCount ≤ r.gapsCredited := by
  cases old : r.fsm with
  | notSynced => exact absurd old fsm
  | accumulating => rw [gapsCredited_of_accumulating old]; omega
  | synced => rw [gapsCredited_of_synced old]; omega

/-- No branch of `EDGE` but those of a sync gap adds credit, and those add one gap at most. -/
theorem EdgeCase.gapsCredited_le (h : EdgeCase r tick r') (inv : r.Inv) :
    r'.gapsCredited ≤ r.gapsCredited + if r.run = true ∧ r.classAt tick = .syncGap then 1 else 0 := by
  cases h with
  | stopped => exact Nat.le_add_right _ _
  | noise | overflow | retry => exact (gapsCredited_of_notSynced rfl).trans_le (Nat.zero_le _)
  | ignored | appended => exact gapsCredited_le_add rfl (Nat.le_add_right _ _)
  | opened run cls fsm =>
    obtain ⟨-, -, -, stability, -⟩ := inv.idle fsm
    rw [if_pos ⟨run, cls⟩, gapsCredited_of_accumulating rfl]
    simp [stability]
  | first run cls | tolerated run cls =>
    rw [if_pos ⟨run, cls⟩]
    exact gapsCredited_le_add rfl (by simp)
  | matched run cls =>
    rw [if_pos ⟨run, cls⟩]
    exact gapsCredited_le_add rfl (min_le_left _ _)
  | published run cls fsm _ _ stable =>
    rw [if_pos ⟨run, cls⟩, gapsCredited_of_synced rfl, Nat.add_comm]
    exact Nat.add_le_add_right (stableCount_le_gapsCredited fsm (min_eq_right_iff.1 stable)) 1

/-- The gaps of a run are those of its first operation and those of the rest. -/
theorem gapsSeen_cons_of_ok (is : List Instr) (step : operate i r = .ok r') :
    gapsSeen (i :: is) r = gapsSeen [i] r + gapsSeen is r' := by
  simp only [gapsSeen, step, Nat.add_zero]

theorem gapsSeen_edge (lt : tick < c.period) :
    gapsSeen [.edge tick] r = if r.run = true ∧ r.classAt tick = .syncGap then 1 else 0 := by
  simp only [gapsSeen, operate_edge lt, Nat.add_zero]

/-- Credit comes from sync gaps measured alone, operation by operation. -/
theorem operate_gapsCredited_le (inv : r.Inv) (h : operate i r = .ok r') :
    r'.gapsCredited ≤ r.gapsCredited + gapsSeen [i] r := by
  obtain ⟨rfl, rfl⟩ | ⟨tick, rfl, lt, rfl⟩ | ⟨rfl, rfl⟩ | ⟨rfl, rfl⟩ | ⟨rfl, rfl⟩ := operate_ok h
  · exact Nat.le_add_right _ _
  · rw [gapsSeen_edge lt]
    exact (edge_case r tick).gapsCredited_le inv
  · exact (gapsCredited_of_notSynced rfl).trans_le (Nat.zero_le _)
  · exact (gapsCredited_of_notSynced rfl).trans_le (Nat.zero_le _)
  · exact Nat.le_add_right _ _

/-- The invariants hold along every run, and credit comes from sync gaps measured alone. -/
theorem runInstrs_gapsCredited_le (is : List Instr) (inv : r.Inv) (h : runInstrs is r = .ok r') :
    r'.Inv ∧ r'.gapsCredited ≤ r.gapsCredited + gapsSeen is r := by
  induction is generalizing r with
  | nil =>
    obtain rfl := Except.ok.inj h
    exact ⟨inv, le_rfl⟩
  | cons i is ih =>
    obtain ⟨mid, step, tail⟩ := runInstrs_cons_ok h
    obtain ⟨invEnd, rest⟩ := ih (operate_inv inv step) tail
    have first := operate_gapsCredited_le inv step
    rw [gapsSeen_cons_of_ok is step]
    exact ⟨invEnd, by omega⟩

end Recovery

/-- Settles O58: the run starts with no credit and ends with all of it. -/
theorem recoveryNeedsItsSyncGaps : Obligations.RecoveryNeedsItsSyncGaps := by
  intro c is r r' inv fsm h published
  obtain ⟨invEnd, credit⟩ := runInstrs_gapsCredited_le is inv h
  rwa [gapsCredited_of_notSynced fsm, gapsCredited_of_synced (invEnd.sync_iff.1 published), Nat.zero_add] at credit

end Sys2Proof.Machine

/-! # The family of `spec/70_reset_and_hazards.md`: reset, silent closes, and a change of channel count -/

namespace Sys2Proof.Machine

variable {c : Config}

/-! ## The reset step (rule R240) -/

theorem step_of_pending_reset {s : State} {rest : List (Event Config.ref)} (pending : s.pending = .reset :: rest) :
    step s = .next (doReset { s with pending := rest }) := by
  simp only [step, takeStep, pending]

/-- Settles O2. -/
theorem resetStepFromAnyState : Obligations.ResetStepFromAnyState := fun _ _ => step_of_pending_reset

/-! ## Closes without a publication (rule R255) -/

/-- How many frames can still close before a close publishes or desynchronises: `STABLE_COUNT - 1` for every mismatch
that is still tolerated, the mismatch and the matches after it, and the matches that still follow the last one. -/
def Regs.silentClosesLeft (r : Regs c) : Nat :=
  (c.retryBound - r.mismatch.val) * (c.stableCount - 1) + (c.stableCount - 1 - r.stability.val)

section SilentCloses

variable {r r' : Regs c} {tick : Nat} {i : Instr} {is : List Instr}

/-- A confirmed count has no mismatch behind it, the contraposition of rule R39. -/
theorem Regs.Inv.mismatch_eq_zero (inv : r.Inv) (confirmed : r.stability.val = c.stableCount) :
    r.mismatch.val = 0 := by
  by_contra mismatched
  exact (inv.tentative (Nat.pos_of_ne_zero mismatched)).ne confirmed

theorem silentClosesLeft_of_confirmed (inv : r.Inv) (confirmed : r.stability.val = c.stableCount) :
    r.silentClosesLeft = c.retryBound * (c.stableCount - 1) := by
  rw [Regs.silentClosesLeft, inv.mismatch_eq_zero confirmed, confirmed, Nat.sub_zero,
    Nat.sub_eq_zero_of_le (Nat.sub_le _ _), Nat.add_zero]

/-- One match uses up one of the matches left (R127). -/
theorem silentClosesLeft_of_matched (mismatch : r'.mismatch = r.mismatch)
    (stability : r'.stability = stabilityNext r.stability) (unstable : r.stability.val + 1 < c.stableCount) :
    1 + r'.silentClosesLeft ≤ r.silentClosesLeft := by
  rw [Regs.silentClosesLeft, Regs.silentClosesLeft, mismatch, stability, stabilityNext_val, min_eq_left unstable.le]
  omega

/-- One tolerated mismatch uses up one of those left, and makes way for `STABLE_COUNT - 2` matches (R128). -/
theorem silentClosesLeft_of_tolerated (mismatch : r'.mismatch.val = r.mismatch.val + 1)
    (stability : r'.stability = stabilityOne c) : 1 + r'.silentClosesLeft ≤ r.silentClosesLeft := by
  have bound : r.mismatch.val + 1 ≤ c.retryBound := mismatch ▸ Nat.le_of_lt_succ r'.mismatch.isLt
  have two := c.two_le_stableCount
  have oneMore : c.retryBound - r.mismatch.val = c.retryBound - (r.mismatch.val + 1) + 1 := by omega
  rw [Regs.silentClosesLeft, Regs.silentClosesLeft, mismatch, stability, stabilityOne_val, oneMore, Nat.add_one_mul]
  omega

/-- A match that reaches `STABLE_COUNT` is a publication (R127). -/
theorem publishes_edge (run : r.run = true) (cls : r.classAt tick = .syncGap) (fsm : r.fsm ≠ .notSynced)
    (ref : r.haveRef = true) (count : r.candLen = r.refCount)
    (stable : (stabilityNext r.stability).val = c.stableCount) : r.Publishes (.edge tick) :=
  ⟨(closes_edge_of_gap run cls fsm).trans (by rw [count]), ref, stable⟩

/-- An `EDGE` of a block that stays `Synced` and does not publish closes only frames that are left. -/
theorem EdgeCase.silentClosesLeft_le (h : EdgeCase r tick r') (inv : r.Inv) (synced : r.pubSync = .synced)
    (silent : ¬ r.Publishes (.edge tick)) (synced' : r'.pubSync = .synced) :
    (r.closes (.edge tick)).toList.length + r'.silentClosesLeft ≤ r.silentClosesLeft := by
  have fsm := inv.sync_iff.1 synced
  cases h with
  | noise | overflow | retry => cases synced'
  | opened _ _ other | ignored _ _ other => simp [fsm] at other
  | first _ _ _ unlearned => simp [inv.synced fsm] at unlearned
  | published run cls opened ref count stable => exact absurd (publishes_edge run cls opened ref count stable) silent
  | stopped run =>
    rw [closes_edge_eq_none (by simp [run])]
    exact (Nat.zero_add _).le
  | appended _ cls =>
    rw [closes_edge_eq_none (by simp [cls])]
    exact (Nat.zero_add _).le
  | matched run cls opened _ _ unstable =>
    rw [closes_edge_of_gap run cls opened]
    exact silentClosesLeft_of_matched rfl rfl unstable
  | tolerated run cls opened =>
    rw [closes_edge_of_gap run cls opened]
    exact silentClosesLeft_of_tolerated rfl rfl

/-- The same of every operation: `START` and `STOP` end the block's being `Synced`, and the others close nothing. -/
theorem operate_silentClosesLeft_le (inv : r.Inv) (h : operate i r = .ok r') (synced : r.pubSync = .synced)
    (silent : ¬ r.Publishes i) (synced' : r'.pubSync = .synced) :
    (r.closes i).toList.length + r'.silentClosesLeft ≤ r.silentClosesLeft := by
  obtain ⟨rfl, rfl⟩ | ⟨tick, rfl, -, rfl⟩ | ⟨rfl, rfl⟩ | ⟨rfl, rfl⟩ | ⟨rfl, rfl⟩ := operate_ok h
  · exact (Nat.zero_add _).le
  · exact (edge_case r tick).silentClosesLeft_le inv synced silent synced'
  · cases synced'
  · cases synced'
  · exact (Nat.zero_add _).le

theorem SilentSynced.pubSync_eq (h : SilentSynced is r) : r.pubSync = .synced := by
  cases is with
  | nil => exact h
  | cons => exact h.1

/-- A silent run is an operation that answers and does not publish, and the silent run after it. -/
theorem silentSynced_cons (h : SilentSynced (i :: is) r) :
    ¬ r.Publishes i ∧ ∃ r', operate i r = .ok r' ∧ SilentSynced is r' := by
  obtain ⟨-, silent, rest⟩ := h
  refine ⟨silent, ?_⟩
  rcases step : operate i r with e | r'
  · simp only [step] at rest
  · simp only [step] at rest
    exact ⟨r', rfl, rest⟩

theorem length_closedCounts_cons (step : operate i r = .ok r') :
    (closedCounts (i :: is) r []).length = (r.closes i).toList.length + (closedCounts is r' []).length := by
  rw [closedCounts_cons_of_ok is step, closedCounts_acc, List.append_nil, List.length_append, Nat.add_comm]

/-- A silent run closes no more frames than are left at its start. -/
theorem SilentSynced.length_closedCounts_le (silent : SilentSynced is r) (inv : r.Inv) :
    (closedCounts is r []).length ≤ r.silentClosesLeft := by
  induction is generalizing r with
  | nil => exact Nat.zero_le _
  | cons i is ih =>
    have synced := silent.pubSync_eq
    obtain ⟨unpublished, r', step, rest⟩ := silentSynced_cons silent
    have first := operate_silentClosesLeft_le inv step synced unpublished rest.pubSync_eq
    have others := ih rest (operate_inv inv step)
    rw [length_closedCounts_cons step]
    omega

end SilentCloses

/-- Settles O59: from a confirmed count every tolerated mismatch is still left. -/
theorem unpublishedClosesWhileSyncedAreBounded : Obligations.UnpublishedClosesWhileSyncedAreBounded := by
  intro c is r inv confirmed silent
  rw [← silentClosesLeft_of_confirmed inv confirmed]
  exact silent.length_closedCounts_le inv

/-! ## A change of channel count (rule R256) -/

/-- The published count and channels are the same; `pub_sync` follows `fsm` (R36). -/
def Regs.SameStore (r r' : Regs c) : Prop := r'.pubCount = r.pubCount ∧ r'.pubCh = r.pubCh

section CountChange

variable {r r' r'' : Regs c} {w k : Nat} {f : Frame} {frames : List Frame}

theorem Regs.SameStore.trans (h : r.SameStore r') (h' : r'.SameStore r'') : r.SameStore r'' :=
  ⟨h'.1.trans h.1, h'.2.trans h.2⟩

theorem Regs.SameButFrame.sameStore (h : r.SameButFrame r') : r.SameStore r' := by
  rw [h]
  exact ⟨rfl, rfl⟩

theorem Regs.SameButFrame.mismatch_eq (h : r.SameButFrame r') : r'.mismatch = r.mismatch := by rw [h]

/-- An edge that does not publish leaves the store (R161). -/
theorem EdgeCase.sameStore {tick : Nat} (h : EdgeCase r tick r') (silent : ¬ r.Publishes (.edge tick)) :
    r.SameStore r' := by
  obtain same | ⟨publishes, -⟩ := h.store
  · exact same
  · exact absurd publishes silent

/-- One more frame does not publish a count that it leaves below `STABLE_COUNT` (R127). -/
theorem Regs.Counts.not_publishes (counts : r.Counts w k) (below : k + 1 < c.stableCount) (i : Instr) :
    ¬ r.Publishes i := by
  rintro ⟨-, ref, stable⟩
  cases counts with
  | unlearned _ unlearned => simp [ref] at unlearned
  | learned _ _ _ stability =>
    rw [stabilityNext_val, stability] at stable
    omega

/-- A counted frame leaves the store while the count is tentative. -/
theorem Regs.Counts.receiveFrame_sameStore (counts : r.Counts w k) (st : r.AtFrameStart) (cap : w ≤ c.maxChannels)
    (clean : f.Clean c w) (below : k + 1 < c.stableCount) : r.SameStore (r.receiveFrame f) := by
  obtain ⟨-, same⟩ := st.foldl_receive_widths counts.fsm_ne cap clean
  rw [receiveFrame_eq]
  exact same.sameStore.trans ((edge_case _ _).sameStore ((counts.congr same).not_publishes below _))

theorem Regs.Counts.foldl_receiveFrame_sameStore (counts : r.Counts w k) (st : r.AtFrameStart)
    (cap : w ≤ c.maxChannels) (clean : ∀ f ∈ frames, f.Clean c w) (below : k + frames.length < c.stableCount) :
    r.SameStore (frames.foldl Regs.receiveFrame r) := by
  induction frames generalizing r k with
  | nil => exact ⟨rfl, rfl⟩
  | cons f frames ih =>
    obtain ⟨clean, cleanRest⟩ := List.forall_mem_cons.1 clean
    rw [List.length_cons] at below
    obtain ⟨counted, -, -⟩ := counts.receiveFrame st cap clean
    have rest := ih counted (st.receiveFrame clean) cleanRest (by omega)
    exact (counts.receiveFrame_sameStore st cap clean (by omega)).trans rest

/-- The first frame of another count is a tolerated mismatch: its count is learned, and nothing is published
(R128). -/
theorem Regs.AtFrameStart.receiveFrame_tolerated (st : r.AtFrameStart) (fsm : r.fsm ≠ .notSynced)
    (ref : r.haveRef = true) (other : r.refCount.val ≠ w) (bound : r.mismatch.val + 1 ≤ c.retryBound)
    (cap : w ≤ c.maxChannels) (clean : f.Clean c w) :
    (r.receiveFrame f).Counts w 1 ∧ (r.receiveFrame f).fsm = r.fsm ∧ r.SameStore (r.receiveFrame f) := by
  obtain ⟨⟨len, -⟩, same⟩ := st.foldl_receive_widths fsm cap clean
  obtain ⟨rfl, -, gap⟩ := clean
  have pulses := st.foldl_receive f.widths
  rw [receiveFrame_eq]
  generalize f.widths.foldl Regs.receive r = mid at len same pulses ⊢
  have fsm' : mid.fsm ≠ .notSynced := same.fsm_eq.trans_ne fsm
  have ref' : mid.haveRef = true := same.haveRef_eq.trans ref
  have mismatches : mid.candLen ≠ mid.refCount := fun eq => other (by rw [← same.refCount_eq, ← eq, len])
  have bound' : mid.mismatch.val + 1 ≤ c.retryBound := by rwa [same.mismatch_eq]
  rw [Regs.receive, edge_of_tolerated pulses.run (pulses.classAt_gap gap) fsm' ref' mismatches bound']
  exact ⟨counts_one fsm' ref' len rfl, same.fsm_eq, same.sameStore⟩

end CountChange

/-- Settles O60: the first frame of the new count learns it, and the frames after it are counted up to the
`STABLE_COUNT`-th, which is the one published. -/
theorem countChangeSeenLateAndWhole : Obligations.CountChangeSeenLateAndWhole := by
  intro c r w frames inv fsm confirmed empty other retry cap clean
  have st : r.AtFrameStart := ⟨⟨inv, inv.run_eq_true (by simp [fsm])⟩, empty⟩
  refine ⟨frames.foldl Regs.receiveFrame r, ?_, ?_⟩
  · rw [st.runInstrs_reported, foldl_receive_frameIntervals]
  cases frames with
  | nil => exact ⟨fun _ => ⟨inv.sync_iff.2 fsm, rfl, rfl⟩, fun _ _ last => nomatch last⟩
  | cons first rest =>
    obtain ⟨cleanFirst, cleanRest⟩ := List.forall_mem_cons.1 clean
    have bound : r.mismatch.val + 1 ≤ c.retryBound := by rwa [inv.mismatch_eq_zero confirmed]
    obtain ⟨counts, fsmFirst, storeFirst⟩ :=
      st.receiveFrame_tolerated (by simp [fsm]) (inv.synced fsm) other bound cap cleanFirst
    have start := st.receiveFrame cleanFirst
    rw [List.length_cons, Nat.add_comm, List.foldl_cons]
    refine ⟨fun few => ?_, fun enough f last => ?_⟩
    · obtain ⟨done, -, fsmRest⟩ := counts.foldl_receiveFrame start cap cleanRest
      obtain ⟨pubCount, pubCh⟩ := storeFirst.trans (counts.foldl_receiveFrame_sameStore start cap cleanRest few)
      exact ⟨done.inv.sync_iff.2 (by rw [fsmRest few, fsmFirst, fsm]), pubCount, pubCh⟩
    · have two := c.two_le_stableCount
      have rest_ne : rest ≠ [] := List.length_pos_iff.1 (by omega)
      have lastOfRest : rest.getLast? = some f := (List.getLast?_append_of_ne_nil [first] rest_ne).symm.trans last
      exact counts.shows_getLast start cap cleanRest enough.ge lastOfRest

end Sys2Proof.Machine
